-- ==== Sys2Proof/Word.lean ====
section
/-!
DEFINITION. The word types of the RGB Matrix Refresh Engine and their plainest arithmetic: framebuffer words and bus
data (32 bits), bytes, transaction keys (17 bits, R91), window offsets (14 bits, R61). All values are unsigned (R8).
-/
namespace Sys2Proof

/-- A 32-bit framebuffer word, bus data word or trace event (R28, R91, R96). -/
abbrev Word := BitVec 32

/-- One byte. -/
abbrev Byte := BitVec 8

/-- A 17-bit transaction key `{SIZE, W, OFF}` (R91). -/
abbrev Key := BitVec 17

/-- A 14-bit byte offset in the block's window (R61). -/
abbrev Offset := BitVec 14

/-- Byte `k` of a word is bits `8k+7 : 8k` (R65). -/
def wordByte (w : Word) (k : Nat) : Byte := w.extractLsb' (8 * k) 8

/-- The word whose bytes 0 to 3 are given, byte 0 in bits 7:0 (R65). -/
def wordOfBytes (b0 b1 b2 b3 : Byte) : Word := b3 ++ b2 ++ b1 ++ b0

end Sys2Proof
end

