-- ==== Sys2Proof/Syntax.lean ====
section
/-!
DEFINITION. The instructions of the RGB Matrix Refresh Engine (R2, R107): one constructor per row of
spec/opcode_table.json. A host constructor is one bus transaction with its operands (R92, R94, R95). An engine
constructor is one micro-operation, with the fields of the event that names it as operands (R96, R97).
-/
namespace Sys2Proof

/-- The direction of a host transaction; a write carries its data word (R91). -/
inductive Access where
  /-- `W = 0`: a read. -/
  | read
  /-- `W = 1`: a write of the data word `wdata`. -/
  | write (wdata : Word)
  deriving DecidableEq, Repr, Inhabited

/-- The `W` bit of a transaction (R91). -/
def Access.isWrite : Access → Bool
  | .read => false
  | .write _ => true

/-- The instruction set: 16 legal host transactions, 11 rows of refused ones, 9 engine events. -/
inductive Instr where
  /-- `FB_RD` (R150): read the framebuffer word `idx`. -/
  | fbRd (idx : BitVec 10)
  /-- `FB_WR` (R151): write `wdata` to the framebuffer word `idx`. -/
  | fbWr (idx : BitVec 10) (wdata : Word)
  /-- `LUT_RD` (R134): read the gamma entry `idx`. -/
  | lutRd (idx : BitVec 8)
  /-- `FBG_RD` (R138): read the framebuffer word `idx` through the gamma alias. -/
  | fbgRd (idx : BitVec 10)
  /-- `FBG_WR` (R137): write `G(wdata)` to the framebuffer word `idx`. -/
  | fbgWr (idx : BitVec 10) (wdata : Word)
  /-- `CTRL_RD` (R255). -/
  | ctrlRd
  /-- `CTRL_WR` (R251). -/
  | ctrlWr (wdata : Word)
  /-- `STATUS_RD` (R252). -/
  | statusRd
  /-- `STATUS_WR` (R253). -/
  | statusWr (wdata : Word)
  /-- `BASE_RD` (R256). -/
  | baseRd
  /-- `BASE_WR` (R254). -/
  | baseWr (wdata : Word)
  /-- `FRAMES_RD` (R257). -/
  | framesRd
  /-- `SCANPOS_RD` (R258). -/
  | scanposRd
  /-- `LINES_RD` (R259). -/
  | linesRd
  /-- `ERRCAUSE_RD` (R260). -/
  | errcauseRd
  /-- `ERRADDR_RD` (R261). -/
  | erraddrRd
  /-- `BUSERR.SIZE` row (a) of R95: `SIZE = 00` (byte, `half = false`) or `01` (halfword, `half = true`). -/
  | busErrSizeNarrow (half : Bool) (off : Offset) (acc : Access)
  /-- `BUSERR.SIZE` row (b) of R95: the reserved size code `SIZE = 11`. -/
  | busErrSizeReserved (off : Offset) (acc : Access)
  /-- `BUSERR.ALIGN` row (a) of R95: a word access with `OFF[0] = 1`. -/
  | busErrAlignOdd (off : Offset) (acc : Access)
  /-- `BUSERR.ALIGN` row (b) of R95: a word access with `OFF[1] = 1` that row (a) did not take. -/
  | busErrAlignEven (off : Offset) (acc : Access)
  /-- `BUSERR.RO`, LUT row of R95: a write to the gamma entry `idx`. -/
  | busErrRoLut (idx : BitVec 8) (wdata : Word)
  /-- `BUSERR.RO`, FRAMES row of R95. -/
  | busErrRoFrames (wdata : Word)
  /-- `BUSERR.RO`, SCANPOS row of R95. -/
  | busErrRoScanpos (wdata : Word)
  /-- `BUSERR.RO`, LINES row of R95. -/
  | busErrRoLines (wdata : Word)
  /-- `BUSERR.RO`, ERRCAUSE row of R95. -/
  | busErrRoErrcause (wdata : Word)
  /-- `BUSERR.RO`, ERRADDR row of R95. -/
  | busErrRoErraddr (wdata : Word)
  /-- `BUSERR.UNMAPPED`, the catch-all row of R95: an aligned word access to a reserved range. -/
  | busErrUnmapped (off : Offset) (acc : Access)
  /-- `FRAME_START` (R211), the frame start inside a host step; `baseu` is `BASE_ACT`. -/
  | frameStart (baseu : BitVec 16)
  /-- `ADDR`, the `ROW` step (R180) of row-pair `row`. -/
  | addr (row : BitVec 4)
  /-- `COLOR`, the `COL` step (R190); `lines6` is `LINES6` of R96. -/
  | color (row : BitVec 4) (plane : BitVec 3) (col : BitVec 5) (lines6 : BitVec 6)
  /-- `CLK`, the `CLK` step (R194). -/
  | clk (row : BitVec 4) (plane : BitVec 3) (col : BitVec 5)
  /-- `LAT`, the `LAT` step (R214). -/
  | lat (row : BitVec 4) (plane : BitVec 3)
  /-- `EN_ON`, the `ENON` step (R215). -/
  | enOn (row : BitVec 4) (plane : BitVec 3)
  /-- `HOLD`, the `HOLD` step (R216) of `dur` ticks. -/
  | hold (dur : BitVec 24)
  /-- `EN_OFF`, the `ENOFF` step (R219). -/
  | enOff (row : BitVec 4) (plane : BitVec 3)
  /-- `FRAME_END`, the `FEND` step (R220); `count` is `FRAMES[27:0]` after the increment. -/
  | frameEnd (count : BitVec 28)
  deriving DecidableEq, Repr

/-- Whether the instruction is an event of the trace (format EVT32); the others are host transactions (R90). -/
def Instr.isEvent : Instr → Bool
  | .frameStart _ | .addr _ | .color _ _ _ _ | .clk _ _ _ | .lat _ _ | .enOn _ _ | .hold _ | .enOff _ _
  | .frameEnd _ => true
  | .fbRd _ | .fbWr _ _ | .lutRd _ | .fbgRd _ | .fbgWr _ _ | .ctrlRd | .ctrlWr _ | .statusRd | .statusWr _
  | .baseRd | .baseWr _ | .framesRd | .scanposRd | .linesRd | .errcauseRd | .erraddrRd
  | .busErrSizeNarrow _ _ _ | .busErrSizeReserved _ _ | .busErrAlignOdd _ _ | .busErrAlignEven _ _
  | .busErrRoLut _ _ | .busErrRoFrames _ | .busErrRoScanpos _ | .busErrRoLines _ | .busErrRoErrcause _
  | .busErrRoErraddr _ | .busErrUnmapped _ _ => false

end Sys2Proof
end

