-- ==== Sys2Proof/Decode.lean ====
section
/-!
DEFINITION. The decoder and the encoder (30_encoding.md): transaction keys by first match over the mask and match rows
of R94 and R95, trace events by the rows of R97, and both as bytes (log entry 13).
-/
namespace Sys2Proof

/-- Why bytes are no instruction. -/
inductive DecodeError where
  /-- Fewer bytes than the first word, or than the data word of a write. -/
  | truncated
  /-- The first word has `KIND = 0` and a bit above the key's 17 bits. -/
  | keyTooWide
  /-- An event kind the block never emits (R99). -/
  | reservedKind
  /-- A reserved bit of the event's kind is not 0 (R99). -/
  | reservedBits
  deriving DecidableEq, Repr

/-- What the decoder answers: an instruction with the rest of the input, or a rejection by name. -/
inductive Decoded (α : Type) where
  | ok (a : α)
  | reject (e : DecodeError)
  deriving DecidableEq, Repr

/-! ### Host transaction keys (TK17) -/

/-- `SIZE`, bits 16:15 of a key (R91). -/
def Key.size (key : Key) : BitVec 2 := key.extractLsb' 15 2
/-- `W`, bit 14 of a key (R91). -/
def Key.isWrite (key : Key) : Bool := key.getLsbD 14
/-- `OFF`, bits 13:0 of a key (R91). -/
def Key.off (key : Key) : Offset := key.extractLsb' 0 14
/-- `OFF[11:2]`, the framebuffer index (R92). -/
def Key.pixelIndex (key : Key) : BitVec 10 := key.extractLsb' 2 10
/-- `OFF[9:2]`, the gamma table index (R92). -/
def Key.lutIndex (key : Key) : BitVec 8 := key.extractLsb' 2 8
/-- The direction of a key, with the data word of a write (R91). -/
def Key.access (key : Key) (wdata : Word) : Access := if key.isWrite then .write wdata else .read

/-- One TK17 row: it takes the keys with `key & mask = pattern` and builds the instruction from key and data word. -/
structure KeyRow where
  mask : Key
  pattern : Key
  build : Key → Word → Instr

/-- The row takes the key (R93). -/
def KeyRow.takes (row : KeyRow) (key : Key) : Bool := key &&& row.mask == row.pattern

/-- The 16 legal rows of R94, in the table's order. -/
def legalKeyRows : List KeyRow := [
  ⟨0x1F003#17, 0x10000#17, fun k _ => .fbRd k.pixelIndex⟩,
  ⟨0x1F003#17, 0x14000#17, fun k w => .fbWr k.pixelIndex w⟩,
  ⟨0x1FC03#17, 0x11000#17, fun k _ => .lutRd k.lutIndex⟩,
  ⟨0x1F003#17, 0x13000#17, fun k _ => .fbgRd k.pixelIndex⟩,
  ⟨0x1F003#17, 0x17000#17, fun k w => .fbgWr k.pixelIndex w⟩,
  ⟨0x1FFFF#17, 0x12000#17, fun _ _ => .ctrlRd⟩,
  ⟨0x1FFFF#17, 0x16000#17, fun _ w => .ctrlWr w⟩,
  ⟨0x1FFFF#17, 0x12004#17, fun _ _ => .statusRd⟩,
  ⟨0x1FFFF#17, 0x16004#17, fun _ w => .statusWr w⟩,
  ⟨0x1FFFF#17, 0x12008#17, fun _ _ => .baseRd⟩,
  ⟨0x1FFFF#17, 0x16008#17, fun _ w => .baseWr w⟩,
  ⟨0x1FFFF#17, 0x1200C#17, fun _ _ => .framesRd⟩,
  ⟨0x1FFFF#17, 0x12010#17, fun _ _ => .scanposRd⟩,
  ⟨0x1FFFF#17, 0x12014#17, fun _ _ => .linesRd⟩,
  ⟨0x1FFFF#17, 0x12018#17, fun _ _ => .errcauseRd⟩,
  ⟨0x1FFFF#17, 0x1201C#17, fun _ _ => .erraddrRd⟩]

/-- The error rows of R95 before the catch-all, in the table's order. -/
def errorKeyRows : List KeyRow := [
  ⟨0x10000#17, 0x00000#17, fun k w => .busErrSizeNarrow (k.getLsbD 15) k.off (k.access w)⟩,
  ⟨0x18000#17, 0x18000#17, fun k w => .busErrSizeReserved k.off (k.access w)⟩,
  ⟨0x18001#17, 0x10001#17, fun k w => .busErrAlignOdd k.off (k.access w)⟩,
  ⟨0x18002#17, 0x10002#17, fun k w => .busErrAlignEven k.off (k.access w)⟩,
  ⟨0x1FC03#17, 0x15000#17, fun k w => .busErrRoLut k.lutIndex w⟩,
  ⟨0x1FFFF#17, 0x1600C#17, fun _ w => .busErrRoFrames w⟩,
  ⟨0x1FFFF#17, 0x16010#17, fun _ w => .busErrRoScanpos w⟩,
  ⟨0x1FFFF#17, 0x16014#17, fun _ w => .busErrRoLines w⟩,
  ⟨0x1FFFF#17, 0x16018#17, fun _ w => .busErrRoErrcause w⟩,
  ⟨0x1FFFF#17, 0x1601C#17, fun _ w => .busErrRoErraddr w⟩]

/-- Host decode (R93): the first row that takes the key; every remaining key is `BUSERR.UNMAPPED`. -/
def decodeKey (key : Key) (wdata : Word) : Instr :=
  match (legalKeyRows ++ errorKeyRows).find? (fun row => row.takes key) with
  | some row => row.build key wdata
  | none => .busErrUnmapped key.off (key.access wdata)

/-! ### Trace events (EVT32) -/

/-- `KIND`, bits 31:28 of an event (R96). -/
def eventKind (w : Word) : BitVec 4 := w.extractLsb' 28 4
/-- `S`, bits 23:20 of an event (R96). -/
def eventRow (w : Word) : BitVec 4 := w.extractLsb' 20 4
/-- `P`, bits 18:16 of an event (R96). -/
def eventPlane (w : Word) : BitVec 3 := w.extractLsb' 16 3
/-- `X`, bits 12:8 of an event (R96). -/
def eventCol (w : Word) : BitVec 5 := w.extractLsb' 8 5

/-- One EVT32 row of R97. -/
structure EventRow where
  mask : Word
  pattern : Word
  build : Word → Instr

/-- The row takes the event word (R97). -/
def EventRow.takes (row : EventRow) (w : Word) : Bool := w &&& row.mask == row.pattern

/-- The nine event kinds of R97. -/
def eventRows : List EventRow := [
  ⟨0xFFFF0000#32, 0x10000000#32, fun w => .frameStart (w.extractLsb' 0 16)⟩,
  ⟨0xFFFFFFF0#32, 0x20000000#32, fun w => .addr (w.extractLsb' 0 4)⟩,
  ⟨0xFF08E0C0#32, 0x30000000#32, fun w => .color (eventRow w) (eventPlane w) (eventCol w) (w.extractLsb' 0 6)⟩,
  ⟨0xFF08E0FF#32, 0x40000000#32, fun w => .clk (eventRow w) (eventPlane w) (eventCol w)⟩,
  ⟨0xFF08FFFF#32, 0x50000000#32, fun w => .lat (eventRow w) (eventPlane w)⟩,
  ⟨0xFF08FFFF#32, 0x60000000#32, fun w => .enOn (eventRow w) (eventPlane w)⟩,
  ⟨0xFF000000#32, 0x70000000#32, fun w => .hold (w.extractLsb' 0 24)⟩,
  ⟨0xFF08FFFF#32, 0x80000000#32, fun w => .enOff (eventRow w) (eventPlane w)⟩,
  ⟨0xF0000000#32, 0x90000000#32, fun w => .frameEnd (w.extractLsb' 0 28)⟩]

/-- The kinds the block emits (R97, R99). -/
def eventKindUsed (w : Word) : Bool := decide (1 ≤ (eventKind w).toNat ∧ (eventKind w).toNat ≤ 9)

/-- Event decode (R97, R99): rejects reserved kinds and reserved bits. -/
def decodeEvent (w : Word) : Decoded Instr :=
  match eventRows.find? (fun row => row.takes w) with
  | some row => .ok (row.build w)
  | none => .reject (if eventKindUsed w then .reservedBits else .reservedKind)

/-! ### Bytes -/

/-- Decoding the first instruction of a byte string (log entry 13): a little-endian first word is an event if its
`KIND` is not 0, else a key; a write's data word follows it. -/
def decode : List Byte → Decoded (Instr × List Byte)
  | b0 :: b1 :: b2 :: b3 :: rest =>
    let w := wordOfBytes b0 b1 b2 b3
    if eventKind w ≠ 0#4 then
      match decodeEvent w with
      | .ok i => .ok (i, rest)
      | .reject e => .reject e
    else if w.extractLsb' 17 11 ≠ 0#11 then .reject .keyTooWide
    else
      let key : Key := w.extractLsb' 0 17
      if key.isWrite then
        match rest with
        | c0 :: c1 :: c2 :: c3 :: rest' => .ok (decodeKey key (wordOfBytes c0 c1 c2 c3), rest')
        | _ => .reject .truncated
      else .ok (decodeKey key 0#32, rest)
  | _ => .reject .truncated

/-! ### The encoder -/

/-- `{SIZE, W, OFF}` (R91). -/
def mkKey (size : BitVec 2) (isWrite : Bool) (off : Offset) : Key := size ++ BitVec.ofBool isWrite ++ off

/-- The offset of entry `idx` of the 4 KiB window whose bits 13:12 are `window` (R64). -/
def windowOffset (window : BitVec 2) (idx : BitVec 10) : Offset := window ++ idx ++ 0#2

/-- The offset of gamma entry `idx` (R64). -/
def lutOffset (idx : BitVec 8) : Offset := 0b0100#4 ++ idx ++ 0#2

/-- The key of a host transaction, from the offsets of R64 and the fields of R91; 0 for an event, which has no key. -/
def encodeKey : Instr → Key
  | .fbRd idx => mkKey 0b10#2 false (windowOffset 0b00#2 idx)
  | .fbWr idx _ => mkKey 0b10#2 true (windowOffset 0b00#2 idx)
  | .lutRd idx => mkKey 0b10#2 false (lutOffset idx)
  | .fbgRd idx => mkKey 0b10#2 false (windowOffset 0b11#2 idx)
  | .fbgWr idx _ => mkKey 0b10#2 true (windowOffset 0b11#2 idx)
  | .ctrlRd => mkKey 0b10#2 false 0x2000#14
  | .ctrlWr _ => mkKey 0b10#2 true 0x2000#14
  | .statusRd => mkKey 0b10#2 false 0x2004#14
  | .statusWr _ => mkKey 0b10#2 true 0x2004#14
  | .baseRd => mkKey 0b10#2 false 0x2008#14
  | .baseWr _ => mkKey 0b10#2 true 0x2008#14
  | .framesRd => mkKey 0b10#2 false 0x200C#14
  | .scanposRd => mkKey 0b10#2 false 0x2010#14
  | .linesRd => mkKey 0b10#2 false 0x2014#14
  | .errcauseRd => mkKey 0b10#2 false 0x2018#14
  | .erraddrRd => mkKey 0b10#2 false 0x201C#14
  | .busErrSizeNarrow half off acc => mkKey (0#1 ++ BitVec.ofBool half) acc.isWrite off
  | .busErrSizeReserved off acc => mkKey 0b11#2 acc.isWrite off
  | .busErrAlignOdd off acc => mkKey 0b10#2 acc.isWrite off
  | .busErrAlignEven off acc => mkKey 0b10#2 acc.isWrite off
  | .busErrRoLut idx _ => mkKey 0b10#2 true (lutOffset idx)
  | .busErrRoFrames _ => mkKey 0b10#2 true 0x200C#14
  | .busErrRoScanpos _ => mkKey 0b10#2 true 0x2010#14
  | .busErrRoLines _ => mkKey 0b10#2 true 0x2014#14
  | .busErrRoErrcause _ => mkKey 0b10#2 true 0x2018#14
  | .busErrRoErraddr _ => mkKey 0b10#2 true 0x201C#14
  | .busErrUnmapped off acc => mkKey 0b10#2 acc.isWrite off
  | .frameStart _ | .addr _ | .color _ _ _ _ | .clk _ _ _ | .lat _ _ | .enOn _ _ | .hold _ | .enOff _ _
  | .frameEnd _ => 0#17

/-- The direction and data word of a host transaction (R91); an event has none. -/
def accessOf : Instr → Access
  | .fbWr _ w | .fbgWr _ w | .ctrlWr w | .statusWr w | .baseWr w
  | .busErrRoLut _ w | .busErrRoFrames w | .busErrRoScanpos w | .busErrRoLines w | .busErrRoErrcause w
  | .busErrRoErraddr w => .write w
  | .busErrSizeNarrow _ _ acc | .busErrSizeReserved _ acc | .busErrAlignOdd _ acc | .busErrAlignEven _ acc
  | .busErrUnmapped _ acc => acc
  | .fbRd _ | .lutRd _ | .fbgRd _ | .ctrlRd | .statusRd | .baseRd | .framesRd | .scanposRd | .linesRd
  | .errcauseRd | .erraddrRd
  | .frameStart _ | .addr _ | .color _ _ _ _ | .clk _ _ _ | .lat _ _ | .enOn _ _ | .hold _ | .enOff _ _
  | .frameEnd _ => .read

/-- An event that carries `S`, `P`, `X` and eight low bits (R96). -/
def scanEvent (kind : BitVec 4) (row : BitVec 4) (plane : BitVec 3) (col : BitVec 5) (low : BitVec 8) : Word :=
  kind ++ 0#4 ++ row ++ 0#1 ++ plane ++ 0#3 ++ col ++ low

/-- The event word of a micro-operation (R96, R97); 0 for a host transaction, which has no event. -/
def encodeEvent : Instr → Word
  | .frameStart baseu => 0x1#4 ++ 0#12 ++ baseu
  | .addr row => 0x2#4 ++ 0#24 ++ row
  | .color row plane col lines6 => scanEvent 0x3#4 row plane col (0#2 ++ lines6)
  | .clk row plane col => scanEvent 0x4#4 row plane col 0#8
  | .lat row plane => scanEvent 0x5#4 row plane 0#5 0#8
  | .enOn row plane => scanEvent 0x6#4 row plane 0#5 0#8
  | .hold dur => 0x7#4 ++ 0#4 ++ dur
  | .enOff row plane => scanEvent 0x8#4 row plane 0#5 0#8
  | .frameEnd count => 0x9#4 ++ count
  | .fbRd _ | .fbWr _ _ | .lutRd _ | .fbgRd _ | .fbgWr _ _ | .ctrlRd | .ctrlWr _ | .statusRd | .statusWr _
  | .baseRd | .baseWr _ | .framesRd | .scanposRd | .linesRd | .errcauseRd | .erraddrRd
  | .busErrSizeNarrow _ _ _ | .busErrSizeReserved _ _ | .busErrAlignOdd _ _ | .busErrAlignEven _ _
  | .busErrRoLut _ _ | .busErrRoFrames _ | .busErrRoScanpos _ | .busErrRoLines _ | .busErrRoErrcause _
  | .busErrRoErraddr _ | .busErrUnmapped _ _ => 0#32

/-- The first word of an instruction (log entry 13): an event's word, or a key zero-extended to 32 bits. -/
def encodeWord (i : Instr) : Word := if i.isEvent then encodeEvent i else (encodeKey i).setWidth 32

/-- The bytes of a word, byte 0 first (R65). -/
def wordBytes (w : Word) : List Byte := [wordByte w 0, wordByte w 1, wordByte w 2, wordByte w 3]

/-- The bytes of an instruction (log entry 13): its word, then the data word of a write. -/
def encode (i : Instr) : List Byte :=
  wordBytes (encodeWord i) ++
    match accessOf i with
    | .read => []
    | .write wdata => wordBytes wdata

/-! ### The host's numbering of an instruction's bits -/

/-- The eight bytes of an instruction whose bits are `w`, those from `nbits` up being 0. -/
def tableBytes (nbits w : Nat) : List Byte :=
  wordBytes (BitVec.ofNat 32 (w % 2 ^ nbits)) ++ wordBytes (BitVec.ofNat 32 (w % 2 ^ nbits / 2 ^ 32))

/-- The instruction the decoder reads from an instruction whose bits are `w`. -/
def decodeTableWord (nbits w : Nat) : Option Instr :=
  match decode (tableBytes nbits w) with
  | .ok (i, _) => some i
  | .reject _ => none

end Sys2Proof
end

