-- ==== Sys2Proof/Config.lean ====
section
/-!
DEFINITION. What an instance of the block fixes (R7) and the free values the spec leaves open (93_implementation_defined.md).
An opaque constant has no value a proof can see: a claim about it holds whatever it is.
-/
namespace Sys2Proof.Config

/-- `BASE_RESET` less one: an instance fixes it, at any of the 65535 legal values (R7, U7; log entry 6). -/
opaque baseResetLessOne : Fin 65535

/-- `BASE_RESET` (R7, R33, U7): the reset value of `BASE`, some value in `1..65535`; the spec's default is 1
(log entry 6). -/
def baseReset : BitVec 16 := BitVec.ofNat 16 (baseResetLessOne.val + 1)

/-- `TICK` (R7, U4): the physical duration of one tick, as a rational number of seconds not below 0 (log entry 19). -/
opaque tick : ℚ≥0

/-- `δ` of R41 and U3: the ticks of a `ROW`, `COL`, `CLK`, `LAT` or `FEND` step, one free value per draw (log entry 2). -/
opaque stepDuration : Nat → Nat

/-- What an unwritten framebuffer word reads as (R29, R69, U1): one free value per draw and word (log entry 3). -/
opaque unwrittenWord : Nat → BitVec 10 → Word

/-- The panel's shift register after power-up, by column (R45, U8; log entry 7). -/
opaque panelShiftAtReset : Nat → BitVec 6

/-- The panel's output register after power-up, by column (R45, U8; log entry 7). -/
opaque panelOutputAtReset : Nat → BitVec 6

/-- `BLOCK_BASE` (R7, R61, U6): the bus address of offset 0 (log entry 19). -/
opaque blockBase : Nat

/-- `EN_ACTIVE_LOW` (R7, R37, U5): the physical polarity of the display-enable pin (log entry 19). -/
opaque enActiveLow : Bool

end Sys2Proof.Config
end

