-- ==== Sys2Proof/Machine/State.lean ====
section
/-!
DEFINITION. The state of the block, its panel and its observation (10_state.md, R13, R320, R322), as plain data, and its
value right after reset (R45, R340).
-/
namespace Sys2Proof.Machine

/-- The sequencer position, the block's analogue of a program counter (R23). -/
inductive SeqState where
  | idle | row | col | clk | lat | enon | hold | enoff | fend
  deriving DecidableEq, Repr, Inhabited

/-- The levels of the six colour lines, or one entry of a panel register (R36, R320). -/
structure Colours where
  topA : Bool
  topB : Bool
  topC : Bool
  botA : Bool
  botB : Bool
  botC : Bool
  deriving DecidableEq, Repr, Inhabited

/-- The 13 output lines (R36). `clk` and `lat` rest at 0 and are pulsed within one step (R195). -/
structure Lines where
  addr0 : Bool
  addr1 : Bool
  addr2 : Bool
  addr3 : Bool
  colours : Colours
  clk : Bool
  lat : Bool
  en : Bool
  deriving DecidableEq, Repr, Inhabited

/-- The stored bits of `CSR.CTRL` (R31). -/
structure Ctrl where
  ieFrame : Bool
  ieErr : Bool
  deriving DecidableEq, Repr, Inhabited

/-- The stored bits of `CSR.STATUS` (R32); `BUSY` is derived. -/
structure Status where
  frameDone : Bool
  scanWr : Bool
  goIgn : Bool
  busErr : Bool
  deriving DecidableEq, Repr, Inhabited

/-- The light of one pixel's three channels, in ticks: `ON[r][c][A..C]` (R322). -/
structure OnTime where
  a : Nat
  b : Nat
  c : Nat
  deriving DecidableEq, Repr, Inhabited

/-- The framebuffer as bytes at the offsets `0x000`-`0xFFF` of the FB window, little-endian (R27, R65). An address that
is not listed is unwritten (R29; log entry 5). -/
abbrev Memory := List Host.Cell

/-- One event of the trace with the time of its `emit` (R9, R41). -/
structure TraceEntry where
  word : Word
  stamp : Nat
  deriving DecidableEq, Repr

/-- What a fault record entry reports (R298). -/
inductive RecordKind where
  /-- A read of an unwritten framebuffer word (R297). -/
  | uninitFbRead
  /-- A bus error with its cause code (R290). -/
  | busError (code : BitVec 3)
  /-- A setting of `STATUS.SCAN_WR` (R151, R137). -/
  | scanWr
  /-- A setting of `STATUS.GO_IGN` (R251). -/
  | goIgn
  deriving DecidableEq, Repr

/-- An entry of the model's fault record: what happened, and the step that did it (R298). -/
structure RecordEntry where
  kind : RecordKind
  step : Instr
  deriving DecidableEq, Repr

/-- What the block answers to a host transaction (R13, R91, R291; log entry 14). -/
inductive Response where
  /-- The data of a read. -/
  | read (rdata : Word)
  /-- A write that was done. -/
  | written
  /-- The error response to a read, with its `rdata`. -/
  | readError (rdata : Word)
  /-- The error response to a write. -/
  | writeError
  deriving DecidableEq, Repr

/-- Whose step is next (R12; log entries 1 and 11). -/
inductive Turn where
  /-- The host issues the transaction with this key and, for a write, this data word (R91). -/
  | host (key : Key) (wdata : Word)
  /-- The step that emits this trace event (R97). -/
  | event (word : Word)
  /-- The engine's next step, whatever it is. -/
  | engine
  /-- Reset is asserted (R340). -/
  | reset
  deriving DecidableEq, Repr

/-- Everything the spec gives the block and its observation, and the model's own agenda and draw counter. -/
structure State where
  /-- `state` (R23). -/
  state : SeqState
  /-- Row-pair counter (R21). -/
  s : BitVec 4
  /-- Bit-plane counter (R22). -/
  p : BitVec 3
  /-- Column counter (R24). -/
  x : BitVec 5
  /-- `BASE_ACT` (R25). -/
  baseAct : BitVec 16
  /-- The framebuffer (R27). -/
  mem : Memory
  /-- `CSR.CTRL` (R31). -/
  ctrl : Ctrl
  /-- `CSR.STATUS` (R32). -/
  status : Status
  /-- `CSR.BASE.BASE` (R33). -/
  base : BitVec 16
  /-- `CSR.FRAMES` (R34). -/
  frames : BitVec 32
  /-- `CSR.ERRCAUSE.CAUSE` (R40). -/
  errCause : BitVec 3
  /-- `CSR.ERRADDR.KEY` (R40). -/
  errKey : Key
  /-- The output lines (R36). -/
  lines : Lines
  /-- `T` (R41). -/
  t : Nat
  /-- The panel's shift register `SR[0..31]` (R320). -/
  shiftReg : Vector Colours 32
  /-- The panel's output register `OR[0..31]` (R320). -/
  outReg : Vector Colours 32
  /-- `ON[r][c]` (R322). -/
  on : Vector (Vector OnTime 32) 32
  /-- The trace, oldest event first (R13). -/
  trace : List TraceEntry
  /-- The fault record, oldest entry first (R298). -/
  record : List RecordEntry
  /-- The responses to the host, oldest first (R13). -/
  responses : List Response
  /-- The turns to come, next first (R12, R72; the model's own, log entry 1). -/
  agenda : List Turn
  /-- Which draw of the free values is the present one: every step that runs but a host read moves on to the next (the
  model's own, log entry 4). -/
  draws : Nat
  deriving DecidableEq, Repr

/-- Why the machine stops. -/
inductive Fault where
  /-- Raised by every engine micro-operation when it is not the step that `state` and the counters name, or its
  fields are not those of the event that step emits (R23, R97): stuck, the block takes no such step. Safe. -/
  | stepNotEnabled
  deriving DecidableEq, Repr

/-- Why a step has no meaning. -/
inductive Refusal where
  /-- An instruction of the opcode table without a meaning yet; no arm raises it. Safe. -/
  | notModelled (mnemonic : String)
  /-- Raised by `step` for an event turn whose word the block never emits: a reserved kind or reserved bit (R99). Safe. -/
  | reservedEvent (word : Word)
  deriving DecidableEq, Repr

/-- The six bits of `LINES6` as colour-line levels: bit 0 `TOP_A` up to bit 5 `BOT_C` (R96). -/
def coloursOfBits (b : BitVec 6) : Colours :=
  ⟨b.getLsbD 0, b.getLsbD 1, b.getLsbD 2, b.getLsbD 3, b.getLsbD 4, b.getLsbD 5⟩

/-- The six colour lines at 0. -/
def Colours.low : Colours := ⟨false, false, false, false, false, false⟩

/-- All 13 output lines at 0: the display is blanked (R45). -/
def Lines.low : Lines := ⟨false, false, false, false, .low, false, false, false⟩

/-- The state right after reset (R45, R340). The panel's registers are free values (U8, log entry 7). -/
def State.reset : State where
  state := .idle
  s := 0#4
  p := 0#3
  x := 0#5
  baseAct := Config.baseReset
  mem := []
  ctrl := ⟨false, false⟩
  status := ⟨false, false, false, false⟩
  base := Config.baseReset
  frames := 0#32
  errCause := 0#3
  errKey := 0#17
  lines := .low
  t := 0
  shiftReg := Vector.ofFn fun k => coloursOfBits (Config.panelShiftAtReset k)
  outReg := Vector.ofFn fun k => coloursOfBits (Config.panelOutputAtReset k)
  on := Vector.replicate 32 (Vector.replicate 32 ⟨0, 0, 0⟩)
  trace := []
  record := []
  responses := []
  agenda := []
  draws := 0

end Sys2Proof.Machine
end

