-- ==== Sys2Proof/Machine/Ops.lean ====
section
/-!
DEFINITION. The named operations over the framebuffer, the observation, the error registers and the panel, and the reset
action. Every meaning is built from them. The block has no trap entry and no return from one (R293, R294): what an
erroneous transaction does is `raiseBusError`.
-/
namespace Sys2Proof.Machine

/-! ### The framebuffer's bytes (R27, R29, R65) -/

/-- The byte at an address, if it has been written. -/
def Memory.read : Memory → Nat → Option Byte
  | [], _ => none
  | (a', b) :: m, a => if a = a' then some b else Memory.read m a

/-- Writing the byte at an address, keeping the addresses rising. -/
def Memory.write : Memory → Nat → Byte → Memory
  | [], a, b => [(a, b)]
  | (a', b') :: m, a, b =>
    if a < a' then (a, b) :: (a', b') :: m
    else if a = a' then (a, b) :: m
    else (a', b') :: Memory.write m a b

/-- The little-endian word at an address (R65); a word with an unwritten byte is unwritten (R29). -/
def Memory.readWord (m : Memory) (a : Nat) : Option Word :=
  match m.read a, m.read (a + 1), m.read (a + 2), m.read (a + 3) with
  | some b0, some b1, some b2, some b3 => some (wordOfBytes b0 b1 b2 b3)
  | _, _, _, _ => none

/-- Writing a whole word, little-endian (R62, R65). -/
def Memory.writeWord (m : Memory) (a : Nat) (w : Word) : Memory :=
  (((m.write a (wordByte w 0)).write (a + 1) (wordByte w 1)).write (a + 2) (wordByte w 2)).write (a + 3) (wordByte w 3)

/-- The bytes of the word that holds the byte address `a` are all written. -/
def Memory.wordWritten (m : Memory) (a : Nat) : Bool :=
  (m.read (a / 4 * 4)).isSome && (m.read (a / 4 * 4 + 1)).isSome &&
    (m.read (a / 4 * 4 + 2)).isSome && (m.read (a / 4 * 4 + 3)).isSome

/-- The canonical form: addresses strictly rising, inside the framebuffer, and whole words only. -/
def Memory.wf (m : Memory) : Bool :=
  decide (m.Pairwise fun c d => c.1 < d.1) && m.all fun c => decide (c.1 < 4096) && m.wordWritten c.1

/-- The byte offset of pixel `idx` in the FB window (R27, R64). -/
def pixelAddress (idx : BitVec 10) : Nat := 4 * idx.toNat

/-- `FB[idx]`, if it has been written since reset (R29). -/
def State.fb (st : State) (idx : BitVec 10) : Option Word := st.mem.readWord (pixelAddress idx)

/-- What a read of `FB[idx]` gives: the word, or a free value where it is unwritten (U1, log entry 3). -/
def State.pixel (st : State) (idx : BitVec 10) : Word := (st.fb idx).getD (Config.unwrittenWord st.draws idx)

/-- `MemWrite(idx, 4, w)` (R9). -/
def State.storePixel (st : State) (idx : BitVec 10) (w : Word) : State :=
  { st with mem := st.mem.writeWord (pixelAddress idx) w }

/-! ### Trace, time, record, responses (R9, R13, R41, R298) -/

/-- `emit`: the event of micro-operation `i`, stamped with the present time (R9, R41). -/
def State.emit (st : State) (i : Instr) : State := { st with trace := st.trace ++ [⟨encodeEvent i, st.t⟩] }

/-- `advance(d)` (R9, R41). -/
def State.advance (st : State) (d : Nat) : State := { st with t := st.t + d }

/-- The next draw of the free values: what follows may meet other ones (log entry 4). -/
def State.nextDraw (st : State) : State := { st with draws := st.draws + 1 }

/-- `advance(δ)` with a fresh `δ` (R41, U3, log entry 2). -/
def State.advanceDelta (st : State) : State := (st.advance (Config.stepDuration st.draws)).nextDraw

/-- An entry of the fault record for the step of `i` (R298). -/
def State.note (st : State) (kind : RecordKind) (i : Instr) : State := { st with record := st.record ++ [⟨kind, i⟩] }

/-- The answer to the host's transaction (R13). -/
def State.respond (st : State) (r : Response) : State := { st with responses := st.responses ++ [r] }

/-- The acknowledgement of a write that was done; a later read of an unwritten word may give another value
(R13; log entries 4 and 14). -/
def State.acknowledge (st : State) : State := (st.respond .written).nextDraw

/-- `T` as physical time since reset (R7, R41). -/
def State.physicalTime (st : State) : ℚ≥0 := st.t * Config.tick

/-! ### Bus errors (R290-R294) -/

/-- The error response: a read gets `rdata` 0 (R291). -/
def errorResponse (acc : Access) : Response :=
  match acc with
  | .read => .readError 0#32
  | .write _ => .writeError

/-- `raise BusError(code)` for the transaction `i` (R291). -/
def State.raiseBusError (st : State) (code : BitVec 3) (i : Instr) : State :=
  (({ st with
      status := { st.status with busErr := true }
      errCause := code
      errKey := encodeKey i }.note (.busError code) i).respond (errorResponse (accessOf i))).nextDraw

/-! ### The panel (R320-R322) -/

/-- A `CLK` pulse: the shift register moves by one column and takes the colour lines (R321). -/
def shiftIn (reg : Vector Colours 32) (c : Colours) : Vector Colours 32 :=
  Vector.ofFn fun k => if h : k.val + 1 < 32 then reg[k.val + 1] else c

/-- The value of the address lines (R181, R322). -/
def Lines.address (l : Lines) : BitVec 4 :=
  BitVec.ofBool l.addr3 ++ BitVec.ofBool l.addr2 ++ BitVec.ofBool l.addr1 ++ BitVec.ofBool l.addr0

/-- Light of `d` ticks on the channels that are on. -/
def OnTime.lit (o : OnTime) (d : Nat) (chA chB chC : Bool) : OnTime :=
  ⟨o.a + (if chA then d else 0), o.b + (if chB then d else 0), o.c + (if chC then d else 0)⟩

/-- The new on-time of the pixel at row `r`, column `c`: address `a` lights row `a` from the top half of the output
register and row `a + 16` from the bottom half (R322). -/
def lightPixel (a d : Nat) (out : Colours) (r : Nat) (o : OnTime) : OnTime :=
  if r = a then o.lit d out.topA out.topB out.topC
  else if r = a + 16 then o.lit d out.botA out.botB out.botC
  else o

/-- Light of `d` ticks while the display is enabled; nothing is lit while `EN = 0` (R322). -/
def State.light (st : State) (d : Nat) : State :=
  if st.lines.en then
    { st with on := Vector.ofFn fun r => Vector.ofFn fun c =>
        lightPixel st.lines.address.toNat d st.outReg[c.val] r.val st.on[r.val][c.val] }
  else st

/-- A pulse of the shift clock: up and down within the step, and the panel takes the colour lines (R194, R195, R321). -/
def State.pulseClk (st : State) : State :=
  { st with lines := { st.lines with clk := false }, shiftReg := shiftIn st.shiftReg st.lines.colours }

/-- A pulse of the latch: up and down within the step, and the panel's output register takes the shift register
(R195, R214, R321). -/
def State.pulseLat (st : State) : State :=
  { st with lines := { st.lines with lat := false }, outReg := st.shiftReg }

/-! ### Reset (R340-R343) -/

/-- The reset action: the values of R340. The panel's registers (R342), the observations made so far and the turns
to come are not reached by it (log entry 8); the unwritten words may read otherwise from here on (log entry 4). -/
def State.resetAction (st : State) : State :=
  { State.reset with
      shiftReg := st.shiftReg
      outReg := st.outReg
      trace := st.trace
      responses := st.responses
      agenda := st.agenda
      draws := st.draws + 1 }

end Sys2Proof.Machine
end

