-- ==== Sys2Proof/Machine/BusErrors.lean ====
section
/-!
DEFINITION. The refused host transactions (R95): each raises its bus error (R290, R291) and does nothing else.
-/
namespace Sys2Proof.Machine

/-- Cause `SIZE` (R290). -/
def causeSize : BitVec 3 := 1#3
/-- Cause `ALIGN` (R290). -/
def causeAlign : BitVec 3 := 2#3
/-- Cause `UNMAPPED` (R290). -/
def causeUnmapped : BitVec 3 := 3#3
/-- Cause `RO_WRITE` (R290). -/
def causeRoWrite : BitVec 3 := 4#3

/-- `BUSERR.SIZE` (a): a byte or halfword access. -/
def execBusErrSizeNarrow (half : Bool) (off : Offset) (acc : Access) (st : State) :
    Host.Outcome State Fault Refusal :=
  .next (st.raiseBusError causeSize (.busErrSizeNarrow half off acc))

/-- `BUSERR.SIZE` (b): the reserved size code. -/
def execBusErrSizeReserved (off : Offset) (acc : Access) (st : State) : Host.Outcome State Fault Refusal :=
  .next (st.raiseBusError causeSize (.busErrSizeReserved off acc))

/-- `BUSERR.ALIGN` (a): a word access at an odd offset. -/
def execBusErrAlignOdd (off : Offset) (acc : Access) (st : State) : Host.Outcome State Fault Refusal :=
  .next (st.raiseBusError causeAlign (.busErrAlignOdd off acc))

/-- `BUSERR.ALIGN` (b): a word access at an even, unaligned offset. -/
def execBusErrAlignEven (off : Offset) (acc : Access) (st : State) : Host.Outcome State Fault Refusal :=
  .next (st.raiseBusError causeAlign (.busErrAlignEven off acc))

/-- `BUSERR.RO`: a write to the LUT window. -/
def execBusErrRoLut (idx : BitVec 8) (wdata : Word) (st : State) : Host.Outcome State Fault Refusal :=
  .next (st.raiseBusError causeRoWrite (.busErrRoLut idx wdata))

/-- `BUSERR.RO`: a write to `FRAMES`. -/
def execBusErrRoFrames (wdata : Word) (st : State) : Host.Outcome State Fault Refusal :=
  .next (st.raiseBusError causeRoWrite (.busErrRoFrames wdata))

/-- `BUSERR.RO`: a write to `SCANPOS`. -/
def execBusErrRoScanpos (wdata : Word) (st : State) : Host.Outcome State Fault Refusal :=
  .next (st.raiseBusError causeRoWrite (.busErrRoScanpos wdata))

/-- `BUSERR.RO`: a write to `LINES`. -/
def execBusErrRoLines (wdata : Word) (st : State) : Host.Outcome State Fault Refusal :=
  .next (st.raiseBusError causeRoWrite (.busErrRoLines wdata))

/-- `BUSERR.RO`: a write to `ERRCAUSE`. -/
def execBusErrRoErrcause (wdata : Word) (st : State) : Host.Outcome State Fault Refusal :=
  .next (st.raiseBusError causeRoWrite (.busErrRoErrcause wdata))

/-- `BUSERR.RO`: a write to `ERRADDR`. -/
def execBusErrRoErraddr (wdata : Word) (st : State) : Host.Outcome State Fault Refusal :=
  .next (st.raiseBusError causeRoWrite (.busErrRoErraddr wdata))

/-- `BUSERR.UNMAPPED`: an aligned word access to a reserved range. -/
def execBusErrUnmapped (off : Offset) (acc : Access) (st : State) : Host.Outcome State Fault Refusal :=
  .next (st.raiseBusError causeUnmapped (.busErrUnmapped off acc))

end Sys2Proof.Machine
end

