-- ==== Sys2Proof/Machine/Flags.lean ====
section
/-!
DEFINITION. The flags (R44), the IRQ line (R42) and the read words of the control and status registers (R31-R40, R252-R261).
-/
namespace Sys2Proof.Machine

/-- The 4-bit code of a sequencer position (R23). -/
def SeqState.code : SeqState → BitVec 4
  | .idle => 0#4
  | .row => 1#4
  | .col => 2#4
  | .clk => 3#4
  | .lat => 4#4
  | .enon => 5#4
  | .hold => 6#4
  | .enoff => 7#4
  | .fend => 8#4

/-- `STATUS.BUSY`: a frame is in progress (R32). -/
def State.busy (st : State) : Bool := st.state != .idle

/-- The IRQ line (R42, R296). -/
def State.irq (st : State) : Bool :=
  (st.ctrl.ieFrame && st.status.frameDone) ||
    (st.ctrl.ieErr && (st.status.scanWr || st.status.goIgn || st.status.busErr))

/-- What `CTRL_RD` returns (R255). -/
def State.ctrlWord (st : State) : Word :=
  0#29 ++ BitVec.ofBool st.ctrl.ieErr ++ BitVec.ofBool st.ctrl.ieFrame ++ 0#1

/-- What `STATUS_RD` returns (R252). -/
def State.statusWord (st : State) : Word :=
  0#27 ++ BitVec.ofBool st.status.busErr ++ BitVec.ofBool st.status.goIgn ++ BitVec.ofBool st.status.scanWr ++
    BitVec.ofBool st.status.frameDone ++ BitVec.ofBool st.busy

/-- What `SCANPOS_RD` returns (R258). -/
def State.scanposWord (st : State) : Word :=
  0#4 ++ st.state.code ++ 0#4 ++ st.s ++ 0#5 ++ st.p ++ 0#3 ++ st.x

/-- What `LINES_RD` returns (R259): the bits of `LAT` and `CLK` always read 0. -/
def State.linesWord (st : State) : Word :=
  0#18 ++ BitVec.ofBool st.irq ++ BitVec.ofBool st.lines.en ++ 0#1 ++ 0#1 ++
    BitVec.ofBool st.lines.colours.botC ++ BitVec.ofBool st.lines.colours.botB ++
    BitVec.ofBool st.lines.colours.botA ++ BitVec.ofBool st.lines.colours.topC ++
    BitVec.ofBool st.lines.colours.topB ++ BitVec.ofBool st.lines.colours.topA ++
    BitVec.ofBool st.lines.addr3 ++ BitVec.ofBool st.lines.addr2 ++ BitVec.ofBool st.lines.addr1 ++
    BitVec.ofBool st.lines.addr0

/-- The write-1-to-clear of the status flags by `wdata[4:1]` (R253). -/
def Status.clear (f : Status) (wdata : Word) : Status where
  frameDone := f.frameDone && !wdata.getLsbD 1
  scanWr := f.scanWr && !wdata.getLsbD 2
  goIgn := f.goIgn && !wdata.getLsbD 3
  busErr := f.busErr && !wdata.getLsbD 4

/-- The base unit a `BASE_WR` stores: `wdata[15:0]`, and 1 for 0 (R254, V9). -/
def baseOfData (wdata : Word) : BitVec 16 :=
  if wdata.extractLsb' 0 16 = 0#16 then 1#16 else wdata.extractLsb' 0 16

end Sys2Proof.Machine
end

