-- ==== Sys2Proof/Machine/Operands.lean ====
section
/-!
DEFINITION. The operand forms: pixel channels and bit-planes (R26, R191), the framebuffer indexes of a column (R190), the
hold weight (R38), the levels of the lines, and the routing of a bus address to the block (R61).
-/
namespace Sys2Proof.Machine

/-- `chanA(v) = v[7:0]` (R26). -/
def chanA (v : Word) : Byte := v.extractLsb' 0 8
/-- `chanB(v) = v[15:8]` (R26). -/
def chanB (v : Word) : Byte := v.extractLsb' 8 8
/-- `chanC(v) = v[23:16]` (R26). -/
def chanC (v : Word) : Byte := v.extractLsb' 16 8

/-- The index of the pixel at a row and column: `32·r + c` (R27). -/
def pixelIndex (row col : BitVec 5) : BitVec 10 := row ++ col

/-- The top-half pixel of column `x` of row-pair `s`: `FB[32·s + x]` (R190). -/
def topIndex (s : BitVec 4) (x : BitVec 5) : BitVec 10 := pixelIndex (0#1 ++ s) x

/-- The bottom-half pixel of column `x` of row-pair `s`: `FB[32·(s + 16) + x]` (R190, C3). -/
def bottomIndex (s : BitVec 4) (x : BitVec 5) : BitVec 10 := pixelIndex (1#1 ++ s) x

/-- The six colour lines for plane `p` of a top and a bottom pixel (R190). -/
def planeColours (top bot : Word) (p : BitVec 3) : Colours where
  topA := top.getLsbD p.toNat
  topB := top.getLsbD (8 + p.toNat)
  topC := top.getLsbD (16 + p.toNat)
  botA := bot.getLsbD p.toNat
  botB := bot.getLsbD (8 + p.toNat)
  botC := bot.getLsbD (16 + p.toNat)

/-- `LINES6` of R96: bit 0 `TOP_A` up to bit 5 `BOT_C`. -/
def Colours.bits (c : Colours) : BitVec 6 :=
  BitVec.ofBool c.botC ++ BitVec.ofBool c.botB ++ BitVec.ofBool c.botA ++
    BitVec.ofBool c.topC ++ BitVec.ofBool c.topB ++ BitVec.ofBool c.topA

/-- What the `COL` step drives at the present counters (R190). -/
def State.columnColours (st : State) : Colours :=
  planeColours (st.pixel (topIndex st.s st.x)) (st.pixel (bottomIndex st.s st.x)) st.p

/-- Whether both words of the present column have been written (R190, R297). -/
def State.columnWritten (st : State) : Bool :=
  (st.fb (topIndex st.s st.x)).isSome && (st.fb (bottomIndex st.s st.x)).isSome

/-- `weight[p] = base << p` (R38). -/
def weight (base : BitVec 16) (p : BitVec 3) : BitVec 24 := base.setWidth 24 <<< p.toNat

/-- The address lines driven with the bits of `s` (R180). -/
def Lines.drive (l : Lines) (s : BitVec 4) : Lines :=
  { l with addr0 := s.getLsbD 0, addr1 := s.getLsbD 1, addr2 := s.getLsbD 2, addr3 := s.getLsbD 3 }

/-- The physical level of the display-enable pin (R37, U5). -/
def Lines.enPin (l : Lines) : Bool := l.en ^^ Config.enActiveLow

/-- The interconnect's routing of a bus address to a window offset (R61); `none` is not the block's concern. -/
def routeAddress (a : Nat) : Option Offset :=
  if Config.blockBase ≤ a ∧ a < Config.blockBase + 0x4000 then some (BitVec.ofNat 14 (a - Config.blockBase)) else none

/-- The host turn for a bus access of size code `size` at bus address `a` (R61, R91). -/
def busTurn (size : BitVec 2) (a : Nat) (acc : Access) : Option Turn :=
  (routeAddress a).map fun off =>
    match acc with
    | .read => .host (mkKey size false off) 0#32
    | .write wdata => .host (mkKey size true off) wdata

end Sys2Proof.Machine
end

