-- ==== Sys2Proof/Machine/Scan.lean ====
section
/-!
DEFINITION. The frame start and the engine's micro-operations (42_row_address.md, 43_column_driver.md, 44_scan_engine.md).
A micro-operation is named by the event it emits; it runs when it is the engine's next step (R23, log entry 11).
-/
namespace Sys2Proof.Machine

/-- The engine's next step, as the event it will emit (R23, R97, R222); none in `IDLE`. -/
def State.engineNext (st : State) : Option Instr :=
  match st.state with
  | .idle => none
  | .row => some (.addr st.s)
  | .col => some (.color st.s st.p st.x st.columnColours.bits)
  | .clk => some (.clk st.s st.p st.x)
  | .lat => some (.lat st.s st.p)
  | .enon => some (.enOn st.s st.p)
  | .hold => some (.hold (weight st.baseAct st.p))
  | .enoff => some (.enOff st.s st.p)
  | .fend => some (.frameEnd ((st.frames + 1#32).extractLsb' 0 28))

/-- The outcome of micro-operation `i`: `next` if it is the engine's next step, else stuck (R23, R97). -/
def engineStep (i : Instr) (st next : State) : Host.Outcome State Fault Refusal :=
  if st.engineNext = some i then .next next else .fault .stepNotEnabled

/-- `FrameStart()` (R211). -/
def State.startFrame (st : State) : State :=
  { st with baseAct := st.base, s := 0#4, p := 0#3, x := 0#5, state := .row }.emit (.frameStart st.base)

/-- The `ROW` step (R180). -/
def State.rowStep (st : State) : State :=
  { ({ st with lines := st.lines.drive st.s }.emit (.addr st.s)).advanceDelta with state := .col }

/-- The `COL` step (R190): one entry of the record if either word is unwritten (R297, log entry 15). -/
def State.colStep (st : State) : State :=
  let i := Instr.color st.s st.p st.x st.columnColours.bits
  let noted := if st.columnWritten then st else st.note .uninitFbRead i
  { ({ noted with lines := { st.lines with colours := st.columnColours } }.emit i).advanceDelta with state := .clk }

/-- The `CLK` step (R194). -/
def State.clkStep (st : State) : State :=
  let done := (st.pulseClk.emit (.clk st.s st.p st.x)).advanceDelta
  if st.x = 31#5 then { done with state := .lat } else { done with x := st.x + 1#5, state := .col }

/-- The `LAT` step (R214). -/
def State.latStep (st : State) : State :=
  { (st.pulseLat.emit (.lat st.s st.p)).advanceDelta with state := .enon }

/-- The `ENON` step (R215): it takes no time. -/
def State.enonStep (st : State) : State :=
  { ({ st with lines := { st.lines with en := true } }.emit (.enOn st.s st.p)).nextDraw with state := .hold }

/-- The `HOLD` step (R216): the panel lights and time passes before the event. -/
def State.holdStep (st : State) : State :=
  let d := weight st.baseAct st.p
  { (((st.light d.toNat).advance d.toNat).emit (.hold d)).nextDraw with state := .enoff }

/-- The `ENOFF` step (R219): it takes no time, and moves to the next plane, row-pair or the frame's end. -/
def State.enoffStep (st : State) : State :=
  let done := ({ st with lines := { st.lines with en := false } }.emit (.enOff st.s st.p)).nextDraw
  if st.p ≠ 7#3 then { done with p := st.p + 1#3, x := 0#5, state := .col }
  else if st.s ≠ 15#4 then { done with s := st.s + 1#4, p := 0#3, x := 0#5, state := .row }
  else { done with state := .fend }

/-- The `FEND` step (R220). -/
def State.fendStep (st : State) : State :=
  let frames := st.frames + 1#32
  ({ st with frames := frames, status := { st.status with frameDone := true }, state := .idle }.emit
    (.frameEnd (frames.extractLsb' 0 28))).advanceDelta

/-- `FRAME_START` (R211): the frame start of a host step alone, in `IDLE`, with `BASEU` the programmed unit
(log entry 12). -/
def execFrameStart (baseu : BitVec 16) (st : State) : Host.Outcome State Fault Refusal :=
  if st.state = .idle ∧ st.base = baseu then .next st.startFrame.nextDraw else .fault .stepNotEnabled

/-- `ADDR`, the `ROW` step (R180). -/
def execAddr (row : BitVec 4) (st : State) : Host.Outcome State Fault Refusal :=
  engineStep (.addr row) st st.rowStep

/-- `COLOR`, the `COL` step (R190). -/
def execColor (row : BitVec 4) (plane : BitVec 3) (col : BitVec 5) (lines6 : BitVec 6) (st : State) :
    Host.Outcome State Fault Refusal :=
  engineStep (.color row plane col lines6) st st.colStep

/-- `CLK`, the `CLK` step (R194). -/
def execClk (row : BitVec 4) (plane : BitVec 3) (col : BitVec 5) (st : State) : Host.Outcome State Fault Refusal :=
  engineStep (.clk row plane col) st st.clkStep

/-- `LAT`, the `LAT` step (R214). -/
def execLat (row : BitVec 4) (plane : BitVec 3) (st : State) : Host.Outcome State Fault Refusal :=
  engineStep (.lat row plane) st st.latStep

/-- `EN_ON`, the `ENON` step (R215). -/
def execEnOn (row : BitVec 4) (plane : BitVec 3) (st : State) : Host.Outcome State Fault Refusal :=
  engineStep (.enOn row plane) st st.enonStep

/-- `HOLD`, the `HOLD` step (R216). -/
def execHold (dur : BitVec 24) (st : State) : Host.Outcome State Fault Refusal :=
  engineStep (.hold dur) st st.holdStep

/-- `EN_OFF`, the `ENOFF` step (R219). -/
def execEnOff (row : BitVec 4) (plane : BitVec 3) (st : State) : Host.Outcome State Fault Refusal :=
  engineStep (.enOff row plane) st st.enoffStep

/-- `FRAME_END`, the `FEND` step (R220). -/
def execFrameEnd (count : BitVec 28) (st : State) : Host.Outcome State Fault Refusal :=
  engineStep (.frameEnd count) st st.fendStep

end Sys2Proof.Machine
end

