-- ==== Sys2Proof/Machine/Registers.lean ====
section
/-!
DEFINITION. The control and status register transactions (45_register_interface.md). A read has no side effect but its
response (R69).
-/
namespace Sys2Proof.Machine

/-- `GO` (R251): a frame starts in `IDLE`; inside a frame it is ignored, flagged and recorded (R351, R298). -/
def State.go (st : State) (i : Instr) : State :=
  if st.state = .idle then st.startFrame
  else { st with status := { st.status with goIgn := true } }.note .goIgn i

/-- `CTRL_RD` (R255). -/
def execCtrlRd (st : State) : Host.Outcome State Fault Refusal := .next (st.respond (.read st.ctrlWord))

/-- `CTRL_WR` (R251): the enables are rewritten, then `wdata[0]` is `GO`. -/
def execCtrlWr (wdata : Word) (st : State) : Host.Outcome State Fault Refusal :=
  let enabled := { st with ctrl := ⟨wdata.getLsbD 1, wdata.getLsbD 2⟩ }
  let gone := if wdata.getLsbD 0 then enabled.go (.ctrlWr wdata) else enabled
  .next gone.acknowledge

/-- `STATUS_RD` (R252). -/
def execStatusRd (st : State) : Host.Outcome State Fault Refusal := .next (st.respond (.read st.statusWord))

/-- `STATUS_WR` (R253): write 1 to clear. -/
def execStatusWr (wdata : Word) (st : State) : Host.Outcome State Fault Refusal :=
  .next { st with status := st.status.clear wdata }.acknowledge

/-- `BASE_RD` (R256). -/
def execBaseRd (st : State) : Host.Outcome State Fault Refusal := .next (st.respond (.read (st.base.setWidth 32)))

/-- `BASE_WR` (R254). -/
def execBaseWr (wdata : Word) (st : State) : Host.Outcome State Fault Refusal :=
  .next { st with base := baseOfData wdata }.acknowledge

/-- `FRAMES_RD` (R257). -/
def execFramesRd (st : State) : Host.Outcome State Fault Refusal := .next (st.respond (.read st.frames))

/-- `SCANPOS_RD` (R258). -/
def execScanposRd (st : State) : Host.Outcome State Fault Refusal := .next (st.respond (.read st.scanposWord))

/-- `LINES_RD` (R259). -/
def execLinesRd (st : State) : Host.Outcome State Fault Refusal := .next (st.respond (.read st.linesWord))

/-- `ERRCAUSE_RD` (R260). -/
def execErrcauseRd (st : State) : Host.Outcome State Fault Refusal :=
  .next (st.respond (.read (st.errCause.setWidth 32)))

/-- `ERRADDR_RD` (R261). -/
def execErraddrRd (st : State) : Host.Outcome State Fault Refusal :=
  .next (st.respond (.read (st.errKey.setWidth 32)))

end Sys2Proof.Machine
end

