-- ==== Sys2Proof/Machine/Gamma.lean ====
section
/-!
DEFINITION. The gamma table and the gamma function on a pixel word (40_gamma_lut.md). The table is a constant of the
block: it is valid from reset, no transaction writes it, and no reset changes it (R30, R133; log entry 24).
-/
namespace Sys2Proof.Machine

/-- The 256 entries of the gamma table, row by row as R131 gives them. -/
def lutEntries : List Nat :=
  [0, 0, 0, 0, 0, 0, 0, 0, 1, 1, 1, 1, 1, 2, 2, 2] ++
  [3, 3, 3, 4, 4, 4, 5, 5, 5, 6, 6, 7, 7, 7, 8, 8] ++
  [9, 9, 10, 10, 11, 11, 12, 12, 13, 13, 14, 14, 15, 15, 16, 17] ++
  [17, 18, 18, 19, 20, 20, 21, 21, 22, 23, 23, 24, 25, 25, 26, 27] ++
  [27, 28, 29, 30, 30, 31, 32, 32, 33, 34, 35, 35, 36, 37, 38, 39] ++
  [39, 40, 41, 42, 43, 43, 44, 45, 46, 47, 48, 49, 49, 50, 51, 52] ++
  [53, 54, 55, 56, 57, 57, 58, 59, 60, 61, 62, 63, 64, 65, 66, 67] ++
  [68, 69, 70, 71, 72, 73, 74, 75, 76, 77, 78, 79, 80, 81, 82, 83] ++
  [84, 85, 86, 87, 88, 89, 91, 92, 93, 94, 95, 96, 97, 98, 99, 101] ++
  [102, 103, 104, 105, 106, 107, 109, 110, 111, 112, 113, 114, 116, 117, 118, 119] ++
  [120, 122, 123, 124, 125, 127, 128, 129, 130, 132, 133, 134, 135, 137, 138, 139] ++
  [140, 142, 143, 144, 146, 147, 148, 149, 151, 152, 153, 155, 156, 157, 159, 160] ++
  [161, 163, 164, 166, 167, 168, 170, 171, 172, 174, 175, 177, 178, 179, 181, 182] ++
  [184, 185, 186, 188, 189, 191, 192, 194, 195, 196, 198, 199, 201, 202, 204, 205] ++
  [207, 208, 210, 211, 213, 214, 216, 217, 219, 220, 222, 223, 225, 226, 228, 229] ++
  [231, 232, 234, 236, 237, 239, 240, 242, 243, 245, 247, 248, 250, 251, 253, 255]

/-- `LUT[i]` (R30, R131). -/
def lut (idx : BitVec 8) : Byte := BitVec.ofNat 8 (lutEntries.getD idx.toNat 0)

/-- `G(v)` of R135: each channel through the table, bits 31:24 unchanged. -/
def gammaWord (v : Word) : Word :=
  v.extractLsb' 24 8 ++ lut (v.extractLsb' 16 8) ++ lut (v.extractLsb' 8 8) ++ lut (v.extractLsb' 0 8)

end Sys2Proof.Machine
end

