-- ==== Sys2Proof/Machine/Window.lean ====
section
/-!
DEFINITION. The window transactions: `FB_RD`, `FB_WR` (41_framebuffer_host.md), `LUT_RD`, `FBG_RD`, `FBG_WR` (40_gamma_lut.md).
-/
namespace Sys2Proof.Machine

/-- A host read of `FB[idx]` by transaction `i`: an unwritten word is recorded and reads as a free value, the same
one until another step (R150, R138, R69, R297, U1; log entry 3). -/
def readPixel (i : Instr) (idx : BitVec 10) (st : State) : State :=
  match st.fb idx with
  | some w => st.respond (.read w)
  | none => (st.note .uninitFbRead i).respond (.read (st.pixel idx))

/-- A host write of `FB[idx]` by transaction `i`; inside a frame it sets `SCAN_WR` and is recorded (R151, R137, R298). -/
def writePixel (i : Instr) (idx : BitVec 10) (w : Word) (st : State) : State :=
  let stored := st.storePixel idx w
  let flagged :=
    if st.busy then { stored with status := { stored.status with scanWr := true } }.note .scanWr i else stored
  flagged.acknowledge

/-- `FB_RD` (R150). -/
def execFbRd (idx : BitVec 10) (st : State) : Host.Outcome State Fault Refusal :=
  .next (readPixel (.fbRd idx) idx st)

/-- `FB_WR` (R151). -/
def execFbWr (idx : BitVec 10) (wdata : Word) (st : State) : Host.Outcome State Fault Refusal :=
  .next (writePixel (.fbWr idx wdata) idx wdata st)

/-- `LUT_RD` (R134). -/
def execLutRd (idx : BitVec 8) (st : State) : Host.Outcome State Fault Refusal :=
  .next (st.respond (.read ((lut idx).setWidth 32)))

/-- `FBG_RD` (R138): the alias reads the stored word, no inverse of `G` is applied. -/
def execFbgRd (idx : BitVec 10) (st : State) : Host.Outcome State Fault Refusal :=
  .next (readPixel (.fbgRd idx) idx st)

/-- `FBG_WR` (R137): stores `G(wdata)`. -/
def execFbgWr (idx : BitVec 10) (wdata : Word) (st : State) : Host.Outcome State Fault Refusal :=
  .next (writePixel (.fbgWr idx wdata) idx (gammaWord wdata) st)

end Sys2Proof.Machine
end

