-- ==== Sys2Proof/Machine/Dispatch.lean ====
section
/-!
DEFINITION. One arm per constructor of Instr, each one call of its meaning.
-/
namespace Sys2Proof.Machine

def exec (i : Instr) (s : State) : Host.Outcome State Fault Refusal :=
  match i with
  | .fbRd idx => Sys2Proof.Machine.execFbRd idx s
  | .fbWr idx wdata => Sys2Proof.Machine.execFbWr idx wdata s
  | .lutRd idx => Sys2Proof.Machine.execLutRd idx s
  | .fbgRd idx => Sys2Proof.Machine.execFbgRd idx s
  | .fbgWr idx wdata => Sys2Proof.Machine.execFbgWr idx wdata s
  | .ctrlRd => Sys2Proof.Machine.execCtrlRd s
  | .ctrlWr wdata => Sys2Proof.Machine.execCtrlWr wdata s
  | .statusRd => Sys2Proof.Machine.execStatusRd s
  | .statusWr wdata => Sys2Proof.Machine.execStatusWr wdata s
  | .baseRd => Sys2Proof.Machine.execBaseRd s
  | .baseWr wdata => Sys2Proof.Machine.execBaseWr wdata s
  | .framesRd => Sys2Proof.Machine.execFramesRd s
  | .scanposRd => Sys2Proof.Machine.execScanposRd s
  | .linesRd => Sys2Proof.Machine.execLinesRd s
  | .errcauseRd => Sys2Proof.Machine.execErrcauseRd s
  | .erraddrRd => Sys2Proof.Machine.execErraddrRd s
  | .busErrSizeNarrow half off acc => Sys2Proof.Machine.execBusErrSizeNarrow half off acc s
  | .busErrSizeReserved off acc => Sys2Proof.Machine.execBusErrSizeReserved off acc s
  | .busErrAlignOdd off acc => Sys2Proof.Machine.execBusErrAlignOdd off acc s
  | .busErrAlignEven off acc => Sys2Proof.Machine.execBusErrAlignEven off acc s
  | .busErrRoLut idx wdata => Sys2Proof.Machine.execBusErrRoLut idx wdata s
  | .busErrRoFrames wdata => Sys2Proof.Machine.execBusErrRoFrames wdata s
  | .busErrRoScanpos wdata => Sys2Proof.Machine.execBusErrRoScanpos wdata s
  | .busErrRoLines wdata => Sys2Proof.Machine.execBusErrRoLines wdata s
  | .busErrRoErrcause wdata => Sys2Proof.Machine.execBusErrRoErrcause wdata s
  | .busErrRoErraddr wdata => Sys2Proof.Machine.execBusErrRoErraddr wdata s
  | .busErrUnmapped off acc => Sys2Proof.Machine.execBusErrUnmapped off acc s
  | .frameStart baseu => Sys2Proof.Machine.execFrameStart baseu s
  | .addr row => Sys2Proof.Machine.execAddr row s
  | .color row plane col lines6 => Sys2Proof.Machine.execColor row plane col lines6 s
  | .clk row plane col => Sys2Proof.Machine.execClk row plane col s
  | .lat row plane => Sys2Proof.Machine.execLat row plane s
  | .enOn row plane => Sys2Proof.Machine.execEnOn row plane s
  | .hold dur => Sys2Proof.Machine.execHold dur s
  | .enOff row plane => Sys2Proof.Machine.execEnOff row plane s
  | .frameEnd count => Sys2Proof.Machine.execFrameEnd count s

end Sys2Proof.Machine
end

