-- ==== Sys2Proof/Machine/Fetch.lean ====
section
/-!
DEFINITION. What the next step is (R12): the turn at the head of the agenda, or the engine's when the agenda is empty
(log entry 1); and how an instruction is placed as that next step (log entry 16).
-/
namespace Sys2Proof.Machine

/-- What a step is about to do, in the state it acts on (the turn is taken off the agenda). -/
inductive Fetched where
  /-- Run this instruction. -/
  | run (i : Instr) (st : State)
  /-- Perform the reset action (R340). -/
  | reset (st : State)
  /-- Nothing: the engine has no step in `IDLE` (R12, R344). -/
  | quiet (st : State)
  /-- An event word the block never emits (R99). -/
  | reserved (word : Word)
  deriving DecidableEq, Repr

/-- The engine's turn: the micro-operation that `state` names, and nothing in `IDLE` (R12, R23, R344). -/
def State.fetchEngine (st : State) : Fetched :=
  match st.engineNext with
  | some i => .run i st
  | none => .quiet st

/-- The next step (R12). -/
def State.fetch (st : State) : Fetched :=
  match st.agenda with
  | [] => st.fetchEngine
  | turn :: rest =>
    let st' := { st with agenda := rest }
    match turn with
    | .host key wdata => .run (decodeKey key wdata) st'
    | .event word =>
      match decodeEvent word with
      | .ok i => .run i st'
      | .reject _ => .reserved word
    | .engine => st'.fetchEngine
    | .reset => .reset st'

/-- The pixel word whose plane `p` shows the three given bits and nothing else. -/
def planeWord (chA chB chC : Bool) (p : BitVec 3) : Word :=
  (0#15 ++ BitVec.ofBool chC ++ 0#7 ++ BitVec.ofBool chB ++ 0#7 ++ BitVec.ofBool chA) <<< p.toNat

/-- The plane of a hold of `dur` ticks: the least one that leaves a 16-bit base unit (R38). -/
def holdPlane (dur : BitVec 24) : BitVec 3 :=
  if dur.toNat < 0x10000 then 0#3
  else if dur.toNat < 0x20000 then 1#3
  else if dur.toNat < 0x40000 then 2#3
  else if dur.toNat < 0x80000 then 3#3
  else if dur.toNat < 0x100000 then 4#3
  else if dur.toNat < 0x200000 then 5#3
  else if dur.toNat < 0x400000 then 6#3
  else 7#3

/-- Everything micro-operation `i` reads is set to what its event says, and the sequencer is put at it (log entry 16). -/
def State.atEvent (st : State) (i : Instr) : State :=
  match i with
  | .frameStart baseu => { st with state := .idle, base := baseu }
  | .addr row => { st with state := .row, s := row }
  | .color row plane col lines6 =>
    let c := coloursOfBits lines6
    let placed := (st.storePixel (topIndex row col) (planeWord c.topA c.topB c.topC plane)).storePixel
      (bottomIndex row col) (planeWord c.botA c.botB c.botC plane)
    { placed with state := .col, s := row, p := plane, x := col }
  | .clk row plane col => { st with state := .clk, s := row, p := plane, x := col }
  | .lat row plane => { st with state := .lat, s := row, p := plane }
  | .enOn row plane => { st with state := .enon, s := row, p := plane }
  | .hold dur =>
    { st with state := .hold, p := holdPlane dur, baseAct := (dur >>> (holdPlane dur).toNat).setWidth 16 }
  | .enOff row plane => { st with state := .enoff, s := row, p := plane }
  | .frameEnd count => { st with state := .fend, frames := count.setWidth 32 - 1#32 }
  | .fbRd _ | .fbWr _ _ | .lutRd _ | .fbgRd _ | .fbgWr _ _ | .ctrlRd | .ctrlWr _ | .statusRd | .statusWr _
  | .baseRd | .baseWr _ | .framesRd | .scanposRd | .linesRd | .errcauseRd | .erraddrRd
  | .busErrSizeNarrow _ _ _ | .busErrSizeReserved _ _ | .busErrAlignOdd _ _ | .busErrAlignEven _ _
  | .busErrRoLut _ _ | .busErrRoFrames _ | .busErrRoScanpos _ | .busErrRoLines _ | .busErrRoErrcause _
  | .busErrRoErraddr _ | .busErrUnmapped _ _ => st

/-- The state with an event word as the next step. -/
def State.placeEvent (st : State) (word : Word) : State :=
  match decodeEvent word with
  | .ok i => { st.atEvent i with agenda := .event word :: st.agenda }
  | .reject _ => { st with agenda := .event word :: st.agenda }

/-- The state with the instruction whose bits are `w` as the next step: a key as a host turn, an event as an event turn. -/
def State.placeWord (st : State) (nbits w : Nat) : State :=
  let first := BitVec.ofNat 32 (w % 2 ^ nbits)
  if first.extractLsb' 17 15 = 0#15 then
    { st with agenda := .host (first.extractLsb' 0 17) (BitVec.ofNat 32 (w % 2 ^ nbits / 2 ^ 32)) :: st.agenda }
  else st.placeEvent first

end Sys2Proof.Machine
end

