-- ==== Sys2Proof/Machine/Step.lean ====
section
/-!
DEFINITION. One step of the block: the step of whichever agent is next in the total order (R12, R72).
-/
namespace Sys2Proof.Machine

/-- One step (R12): the next turn's instruction, the reset action, or nothing in a quiet `IDLE`. -/
def step (s : State) : Host.Outcome State Fault Refusal :=
  match s.fetch with
  | .run i s' => exec i s'
  | .reset s' => .next s'.resetAction
  | .quiet s' => .next s'
  | .reserved word => .refused (.reservedEvent word)

/-- `s` with the instruction whose bits are `w` as the next step (log entry 16). -/
def State.withFetchWord (s : State) (nbits w : Nat) : State := s.placeWord nbits w

end Sys2Proof.Machine
end

