-- ==== Sys2Proof/Safety.lean ====
section
/-!
DEFINITION. What claims speak of: the observation (R13), a run without recorded faults (D47), and the invariants of the
block that every step keeps.
-/
namespace Sys2Proof.Machine

/-- What a claim about the block may speak of (R13). -/
structure Observation where
  trace : List TraceEntry
  responses : List Response
  on : Vector (Vector OnTime 32) 32
  lines : Lines
  irq : Bool
  deriving DecidableEq, Repr

/-- The observation of a state (R13). -/
def State.observe (st : State) : Observation := ⟨st.trace, st.responses, st.on, st.lines, st.irq⟩

/-- No fault has been recorded since reset (R298, D47). -/
abbrev State.clean (st : State) : Prop := st.record = []

/-- Every framebuffer word has been written since reset (R354). -/
abbrev State.allWritten (st : State) : Prop := ∀ idx : BitVec 10, (st.fb idx).isSome

/-- The display is enabled exactly from the end of `ENON` to the start of `ENOFF` (R217; log entry 9). -/
abbrev State.blanking (st : State) : Prop := st.lines.en = true ↔ st.state = .hold ∨ st.state = .enoff

/-- The pulsed lines rest at 0 between steps (R36, R195). -/
abbrev State.pulsesRest (st : State) : Prop := st.lines.clk = false ∧ st.lines.lat = false

/-- The base units are legal, `1..65535` (R25, R33). -/
abbrev State.unitsLegal (st : State) : Prop := st.base ≠ 0#16 ∧ st.baseAct ≠ 0#16

/-- The address lines show `s`, but for the moment before a `ROW` step (R182, R184). -/
abbrev State.addressStable (st : State) : Prop := st.state = .row ∨ st.lines.address = st.s

/-- Where the counters stand in each position of the sequencer (R222, R219, D16). -/
def State.countersPlaced (st : State) : Bool :=
  match st.state with
  | .idle => (st.s == 0#4 && st.p == 0#3 && st.x == 0#5) || (st.s == 15#4 && st.p == 7#3 && st.x == 31#5)
  | .row => st.p == 0#3 && st.x == 0#5
  | .col | .clk => true
  | .lat | .enon | .hold | .enoff => st.x == 31#5
  | .fend => st.s == 15#4 && st.p == 7#3 && st.x == 31#5

/-- The recorded cause is one that R290 names (V6). -/
abbrev State.causeLegal (st : State) : Prop := st.errCause.toNat ≤ 4

/-- Every event of the trace is one of the nine kinds with its reserved bits 0 (R99). -/
abbrev State.traceLegal (st : State) : Prop := ∀ e ∈ st.trace, ∃ i, decodeEvent e.word = .ok i ∧ encodeEvent i = e.word

/-- The recorded cause, the recorded key and the fault record agree: no cause since reset means no key and no bus error
in the record (R40, R290, R298). -/
abbrev State.errorsAgree (st : State) : Prop :=
  st.errCause = 0#3 → st.errKey = 0#17 ∧ ∀ e ∈ st.record, ∀ code, e.kind ≠ .busError code

/-- The invariants of the block. -/
structure State.Inv (st : State) : Prop where
  memory : st.mem.wf = true
  blanking : st.blanking
  pulses : st.pulsesRest
  units : st.unitsLegal
  address : st.addressStable
  counters : st.countersPlaced = true
  cause : st.causeLegal
  trace : st.traceLegal
  errors : st.errorsAgree

end Sys2Proof.Machine
end

