-- ==== Sys2Proof/WellFormed.lean ====
section
/-!
DEFINITION. Which terms of `Instr` are transactions a key can spell. Operand types already bound every index and
field; what is left is that an error row holds only the keys that fall to it in the first-match order of R93 and R95.
-/
namespace Sys2Proof

/-- `OFF[1:0] = 00` (R63). -/
def Offset.aligned (off : Offset) : Bool := off.extractLsb' 0 2 == 0#2

/-- The reserved ranges of the window (R64): `0x1400`-`0x1FFC` and `0x2020`-`0x2FFC`. -/
def Offset.unmapped (off : Offset) : Bool :=
  (0x1400 ≤ off.toNat && off.toNat < 0x2000) || (0x2020 ≤ off.toNat && off.toNat < 0x3000)

/-- The instruction is one the decoder can give: the operands of an error row are keys of that row (R95). -/
def Instr.wellFormed : Instr → Bool
  | .busErrAlignOdd off _ => off.getLsbD 0
  | .busErrAlignEven off _ => off.getLsbD 1 && !off.getLsbD 0
  | .busErrUnmapped off _ => off.aligned && off.unmapped
  | .busErrSizeNarrow _ _ _ | .busErrSizeReserved _ _ | .busErrRoLut _ _ | .busErrRoFrames _ | .busErrRoScanpos _
  | .busErrRoLines _ | .busErrRoErrcause _ | .busErrRoErraddr _
  | .fbRd _ | .fbWr _ _ | .lutRd _ | .fbgRd _ | .fbgWr _ _ | .ctrlRd | .ctrlWr _ | .statusRd | .statusWr _
  | .baseRd | .baseWr _ | .framesRd | .scanposRd | .linesRd | .errcauseRd | .erraddrRd
  | .frameStart _ | .addr _ | .color _ _ _ _ | .clk _ _ _ | .lat _ _ | .enOn _ _ | .hold _ | .enOff _ _
  | .frameEnd _ => true

end Sys2Proof
end

