-- ==== Sys2Proof/Certificates/Slice0/Obligations.lean ====
section
/-!
DEFINITION. The statements for the provers. Expected words and indexes are written as arithmetic, from the spec's tables and
not through the model's own encoders, wherever a statement can say the same thing twice. The field `draws` is the model's
own (log entry 4): where a statement says that nothing else changes, it names how `draws` moves on.
-/
namespace Sys2Proof.Claims

open Sys2Proof.Machine

/-- The event word of `KIND`, `S`, `P`, `X` and low bits, as arithmetic (R96). -/
def scanWord (kind row plane col low : Nat) : Word :=
  BitVec.ofNat 32 (kind * 2 ^ 28 + row * 2 ^ 20 + plane * 2 ^ 16 + col * 2 ^ 8 + low)

/-- The trace after an event word is emitted now. -/
def emitted (s : State) (w : Word) : List TraceEntry := s.trace ++ [⟨w, s.t⟩]

/-- The index of the top-half pixel of the present column: `32*s + x` (R190). -/
def topPixel (s : State) : BitVec 10 := BitVec.ofNat 10 (32 * s.s.toNat + s.x.toNat)

/-- The index of the bottom-half pixel of the present column: `32*(s + 16) + x` (R190). -/
def bottomPixel (s : State) : BitVec 10 := BitVec.ofNat 10 (32 * (s.s.toNat + 16) + s.x.toNat)

/-- The six lines that plane `p` of a top and a bottom pixel drives (R190). -/
def columnLines (top bot : Word) (p : Nat) : Colours :=
  ⟨top.getLsbD p, top.getLsbD (8 + p), top.getLsbD (16 + p), bot.getLsbD p, bot.getLsbD (8 + p), bot.getLsbD (16 + p)⟩

/-- `LINES6` as arithmetic (R96). -/
def lines6 (c : Colours) : Nat :=
  c.topA.toNat + 2 * c.topB.toNat + 4 * c.topC.toNat + 8 * c.botA.toNat + 16 * c.botB.toNat + 32 * c.botC.toNat

/-- A transaction key as arithmetic: `SIZE * 2^15 + W * 2^14 + OFF` (R91). -/
def keyOf (size : Nat) (isWrite : Bool) (off : Nat) : Key := BitVec.ofNat 17 (size * 2 ^ 15 + isWrite.toNat * 2 ^ 14 + off)

/-- The cause of a key's bus error by the priority of R292 and the map of R64, none for a legal key. -/
def causeOf (key : Key) : Option (BitVec 3) :=
  let size := key.toNat / 2 ^ 15
  let isWrite := key.toNat / 2 ^ 14 % 2 = 1
  let off := key.toNat % 2 ^ 14
  if size ≠ 2 then some 1#3
  else if off % 4 ≠ 0 then some 2#3
  else if (0x1400 ≤ off ∧ off ≤ 0x1FFC) ∨ (0x2020 ≤ off ∧ off ≤ 0x2FFC) then some 3#3
  else if isWrite ∧ ((0x1000 ≤ off ∧ off ≤ 0x13FC) ∨ off = 0x200C ∨ off = 0x2010 ∨ off = 0x2014 ∨ off = 0x2018 ∨
      off = 0x201C) then some 4#3
  else none

/-- The state after a bus error of cause `code` on `key`, with the response `r` (R291). -/
def refused (s : State) (code : BitVec 3) (key : Key) (i : Instr) (r : Response) : State :=
  { s with
      status := { s.status with busErr := true }
      errCause := code
      errKey := key
      record := s.record ++ [⟨.busError code, i⟩]
      responses := s.responses ++ [r]
      draws := s.draws + 1 }

/-- The error response of a transaction (R291). -/
def errorOf : Access → Response
  | .read => .readError 0#32
  | .write _ => .writeError

/-- The state after a read that answers `r` and does nothing else (R69). -/
def answered (s : State) (r : Word) : State := { s with responses := s.responses ++ [.read r] }

/-- The gamma table can be read, and its entries are those of R131. -/
def lutValid (s : State) : Prop :=
  ∀ idx : BitVec 8, ∃ r : Word, exec (.lutRd idx) s = .next (answered s r) ∧ r.toNat = lutEntries.getD idx.toNat 0

/-- The refused transactions. -/
def isBusError : Instr → Bool
  | .busErrSizeNarrow _ _ _ | .busErrSizeReserved _ _ | .busErrAlignOdd _ _ | .busErrAlignEven _ _
  | .busErrRoLut _ _ | .busErrRoFrames _ | .busErrRoScanpos _ | .busErrRoLines _ | .busErrRoErrcause _
  | .busErrRoErraddr _ | .busErrUnmapped _ _ => true
  | _ => false

/-- The instructions that start a frame. -/
def startsFrame (i : Instr) : Prop := (∃ w, i = .ctrlWr w) ∨ ∃ b, i = .frameStart b

/-- The transition table of R222: position and counters after a step, from those before it. -/
def transition : SeqState → Nat → Nat → Nat → SeqState × Nat × Nat × Nat
  | .idle, _, _, _ => (.row, 0, 0, 0)
  | .row, s, p, x => (.col, s, p, x)
  | .col, s, p, x => (.clk, s, p, x)
  | .clk, s, p, x => if x < 31 then (.col, s, p, x + 1) else (.lat, s, p, x)
  | .lat, s, p, x => (.enon, s, p, x)
  | .enon, s, p, x => (.hold, s, p, x)
  | .hold, s, p, x => (.enoff, s, p, x)
  | .enoff, s, p, x =>
    if p < 7 then (.col, s, p + 1, 0) else if s < 15 then (.row, s + 1, 0, 0) else (.fend, s, p, x)
  | .fend, s, p, x => (.idle, s, p, x)

/-- Position and counters of a state. -/
def position (s : State) : SeqState × Nat × Nat × Nat := (s.state, s.s.toNat, s.p.toNat, s.x.toNat)

/-- The host turn or event turn that spells an instruction; `d` is the data word on the bus. -/
def spells (i : Instr) (turn : Turn) : Prop :=
  (i.isEvent = true ∧ turn = .event (encodeEvent i)) ∨
    (i.isEvent = false ∧ ∃ d, (accessOf i = .read ∨ accessOf i = .write d) ∧ turn = .host (encodeKey i) d)

end Sys2Proof.Claims

open Sys2Proof Sys2Proof.Machine Sys2Proof.Claims

/-! ### Reset -/

/-- R45: the reset value of every piece of state that has one, and the table that reset does not touch. -/
def Obligations.ResetLeavesTheListedValues : Prop :=
  State.reset.state = .idle ∧ State.reset.s = 0#4 ∧ State.reset.p = 0#3 ∧ State.reset.x = 0#5 ∧
    State.reset.baseAct = Config.baseReset ∧ (∀ idx, State.reset.fb idx = none) ∧
    State.reset.ctrl = ⟨false, false⟩ ∧ State.reset.ctrlWord = 0#32 ∧
    State.reset.status = ⟨false, false, false, false⟩ ∧ State.reset.statusWord = 0#32 ∧
    State.reset.base = Config.baseReset ∧ State.reset.frames = 0#32 ∧ State.reset.scanposWord = 0#32 ∧
    State.reset.linesWord = 0#32 ∧
    State.reset.lines = ⟨false, false, false, false, ⟨false, false, false, false, false, false⟩, false, false, false⟩ ∧
    State.reset.errCause = 0#3 ∧ State.reset.errKey = 0#17 ∧ State.reset.irq = false ∧ State.reset.t = 0 ∧
    (∀ r c : Fin 32, State.reset.on[r][c] = ⟨0, 0, 0⟩) ∧ lutValid State.reset

/-- R340: what the reset action does, wherever it falls. -/
def Obligations.ResetTurnPerformsTheResetAction : Prop :=
  ∀ (s : State) (rest : List Turn), s.agenda = .reset :: rest →
    ∃ t, step s = .next t ∧ t.state = .idle ∧ t.s = 0#4 ∧ t.p = 0#3 ∧ t.x = 0#5 ∧ t.baseAct = Config.baseReset ∧
      (∀ idx, t.fb idx = none) ∧ t.ctrl = ⟨false, false⟩ ∧ t.status = ⟨false, false, false, false⟩ ∧
      t.base = Config.baseReset ∧ t.frames = 0#32 ∧ t.errCause = 0#3 ∧ t.errKey = 0#17 ∧
      t.lines = ⟨false, false, false, false, ⟨false, false, false, false, false, false⟩, false, false, false⟩ ∧
      t.t = 0 ∧ (∀ r c : Fin 32, t.on[r][c] = ⟨0, 0, 0⟩) ∧ t.record = [] ∧ t.trace = s.trace ∧ lutValid t

/-! ### Steps, decoding and encoding -/

/-- R12 with log entries 1 and 11 (the model's agenda): a step runs the next turn, taken off the agenda. -/
def Obligations.StepRunsTheNextTurn : Prop :=
  (∀ (s : State) (key : Key) (wdata : Word) (rest : List Turn), s.agenda = .host key wdata :: rest →
      step s = exec (decodeKey key wdata) { s with agenda := rest }) ∧
    (∀ (s : State) (word : Word) (rest : List Turn) (i : Instr), s.agenda = .event word :: rest →
      decodeEvent word = .ok i → step s = exec i { s with agenda := rest }) ∧
    (∀ (s : State) (word : Word) (rest : List Turn) (e : DecodeError), s.agenda = .event word :: rest →
      decodeEvent word = .reject e → step s = .refused (.reservedEvent word)) ∧
    (∀ (s : State) (rest : List Turn) (i : Instr), s.agenda = .engine :: rest → s.engineNext = some i →
      step s = exec i { s with agenda := rest }) ∧
    (∀ (s : State) (i : Instr), s.agenda = [] → s.engineNext = some i → step s = exec i s) ∧
    (∀ (s : State) (rest : List Turn), s.agenda = .engine :: rest → s.state = .idle →
      step s = .next { s with agenda := rest }) ∧
    (∀ s : State, s.agenda = [] → s.state = .idle → step s = .next s)

/-- Every well-formed instruction, put on the agenda by its encoding, is the one that the step runs (log entry 13). -/
def Obligations.EncodedInstructionRunsAsTheNextTurn : Prop :=
  ∀ (i : Instr) (s : State) (turn : Turn) (rest : List Turn), i.wellFormed = true → spells i turn →
    s.agenda = turn :: rest → step s = exec i { s with agenda := rest }

/-- Decoding the bytes of a well-formed instruction gives it back, with every operand, and leaves the rest. -/
def Obligations.DecodeInvertsEncode : Prop :=
  ∀ (i : Instr) (rest : List Byte), i.wellFormed = true → decode (encode i ++ rest) = .ok (i, rest)

/-- R93, R100: every key decodes, to a well-formed host transaction that keeps the whole key and the data word. -/
def Obligations.KeyDecodeIsTotalAndLosesNothing : Prop :=
  ∀ (key : Key) (wdata : Word), (decodeKey key wdata).wellFormed = true ∧ (decodeKey key wdata).isEvent = false ∧
    encodeKey (decodeKey key wdata) = key ∧
    accessOf (decodeKey key wdata) = if key.toNat / 2 ^ 14 % 2 = 1 then .write wdata else .read

/-- R96, R97: an event word that decodes is the encoding of what it decodes to. -/
def Obligations.EventDecodeLosesNothing : Prop :=
  ∀ (w : Word) (i : Instr), decodeEvent w = .ok i → encodeEvent i = w ∧ i.isEvent = true ∧ i.wellFormed = true

/-- R99: reserved kinds are rejected as such, and exactly the words that no event has are rejected. -/
def Obligations.ReservedEventWordsAreRejected : Prop :=
  (∀ w : Word, decodeEvent w = .reject .reservedKind ↔ w.toNat / 2 ^ 28 = 0 ∨ 10 ≤ w.toNat / 2 ^ 28) ∧
    ∀ w : Word, (∃ e, decodeEvent w = .reject e) ↔ ∀ i : Instr, i.isEvent = true → encodeEvent i ≠ w

/-- R93: the legal rows are pairwise disjoint. -/
def Obligations.LegalKeyRowsAreDisjoint : Prop :=
  legalKeyRows.Pairwise fun a b => ∀ key : Key, ¬(a.takes key = true ∧ b.takes key = true)

/-- Words of the spec's own examples decode to the instructions they stand for (R98, 95_test_vectors.md). -/
def Obligations.SampleWordsDecode : Prop :=
  decodeKey 0x1007C#17 0#32 = .fbRd 31#10 ∧ decodeKey 0x14800#17 0x50#32 = .fbWr 512#10 0x50#32 ∧
    decodeKey 0x11200#17 0#32 = .lutRd 128#8 ∧ decodeKey 0x16000#17 1#32 = .ctrlWr 1#32 ∧
    decodeKey 0x01401#17 0#32 = .busErrSizeNarrow false 0x1401#14 .read ∧
    decodeKey 0x11401#17 0#32 = .busErrAlignOdd 0x1401#14 .read ∧
    decodeKey 0x11400#17 0#32 = .busErrUnmapped 0x1400#14 .read ∧
    decodeKey 0x153FC#17 0#32 = .busErrRoLut 255#8 0#32 ∧
    decodeEvent 0x30040001#32 = .ok (.color 0#4 4#3 0#5 1#6) ∧ decodeEvent 0x2000000F#32 = .ok (.addr 15#4) ∧
    decodeEvent 0x70000080#32 = .ok (.hold 128#24) ∧ decodeEvent 0x50370000#32 = .ok (.lat 3#4 7#3)

/-! ### Bus errors -/

/-- R290, R291: a transaction's cause by size, then alignment, then region; its effect; and none for a legal key. -/
def Obligations.BusErrorCauseFollowsThePriority : Prop :=
  ∀ (key : Key) (wdata : Word) (s : State),
    match causeOf key with
    | some code =>
      exec (decodeKey key wdata) s = .next (refused s code key (decodeKey key wdata)
        (if key.toNat / 2 ^ 14 % 2 = 1 then .writeError else .readError 0#32))
    | none => ∃ t, exec (decodeKey key wdata) s = .next t ∧ t.errCause = s.errCause ∧ t.errKey = s.errKey

/-- R291: each refused transaction takes its bus error, with its whole key recorded, and does nothing else. -/
def Obligations.RefusedTransactionsTakeTheBusError : Prop :=
  ∀ s : State,
    (∀ half off acc, exec (.busErrSizeNarrow half off acc) s =
      .next (refused s 1#3 (keyOf half.toNat acc.isWrite off.toNat) (.busErrSizeNarrow half off acc) (errorOf acc))) ∧
    (∀ off acc, exec (.busErrSizeReserved off acc) s =
      .next (refused s 1#3 (keyOf 3 acc.isWrite off.toNat) (.busErrSizeReserved off acc) (errorOf acc))) ∧
    (∀ off acc, exec (.busErrAlignOdd off acc) s =
      .next (refused s 2#3 (keyOf 2 acc.isWrite off.toNat) (.busErrAlignOdd off acc) (errorOf acc))) ∧
    (∀ off acc, exec (.busErrAlignEven off acc) s =
      .next (refused s 2#3 (keyOf 2 acc.isWrite off.toNat) (.busErrAlignEven off acc) (errorOf acc))) ∧
    (∀ off acc, exec (.busErrUnmapped off acc) s =
      .next (refused s 3#3 (keyOf 2 acc.isWrite off.toNat) (.busErrUnmapped off acc) (errorOf acc))) ∧
    (∀ idx w, exec (.busErrRoLut idx w) s =
      .next (refused s 4#3 (keyOf 2 true (0x1000 + 4 * idx.toNat)) (.busErrRoLut idx w) .writeError)) ∧
    (∀ w, exec (.busErrRoFrames w) s = .next (refused s 4#3 (keyOf 2 true 0x200C) (.busErrRoFrames w) .writeError)) ∧
    (∀ w, exec (.busErrRoScanpos w) s = .next (refused s 4#3 (keyOf 2 true 0x2010) (.busErrRoScanpos w) .writeError)) ∧
    (∀ w, exec (.busErrRoLines w) s = .next (refused s 4#3 (keyOf 2 true 0x2014) (.busErrRoLines w) .writeError)) ∧
    (∀ w, exec (.busErrRoErrcause w) s = .next (refused s 4#3 (keyOf 2 true 0x2018) (.busErrRoErrcause w) .writeError)) ∧
    (∀ w, exec (.busErrRoErraddr w) s = .next (refused s 4#3 (keyOf 2 true 0x201C) (.busErrRoErraddr w) .writeError))

/-! ### The framebuffer and the gamma table -/

/-- R150: a written word is returned and nothing else happens; an unwritten one is recorded and any value is returned. -/
def Obligations.FbReadReturnsTheWord : Prop :=
  (∀ (s : State) (idx : BitVec 10) (w : Word), s.fb idx = some w → exec (.fbRd idx) s = .next (answered s w)) ∧
    ∀ (s : State) (idx : BitVec 10), s.fb idx = none → ∃ v, exec (.fbRd idx) s =
      .next { answered s v with record := s.record ++ [⟨.uninitFbRead, .fbRd idx⟩] }

/-- R138: the alias returns the stored word, no inverse of `G` applied. -/
def Obligations.FbgReadReturnsTheStoredWord : Prop :=
  (∀ (s : State) (idx : BitVec 10) (w : Word), s.fb idx = some w → exec (.fbgRd idx) s = .next (answered s w)) ∧
    ∀ (s : State) (idx : BitVec 10), s.fb idx = none → ∃ v, exec (.fbgRd idx) s =
      .next { answered s v with record := s.record ++ [⟨.uninitFbRead, .fbgRd idx⟩] }

/-- R151, with the frame: the word is stored, every byte outside it reads as before, and inside a frame `SCAN_WR` is set. -/
def Obligations.FbWriteStoresTheWord : Prop :=
  ∀ (s : State) (idx : BitVec 10) (w : Word), ∃ t, exec (.fbWr idx w) s = .next t ∧
    (∀ j, t.fb j = if j = idx then some w else s.fb j) ∧
    (∀ k, k < 4 → t.mem.read (4 * idx.toNat + k) = some (w.extractLsb' (8 * k) 8)) ∧
    (∀ a, a < 4 * idx.toNat ∨ 4 * idx.toNat + 4 ≤ a → t.mem.read a = s.mem.read a) ∧
    t = { s with
            mem := t.mem
            status := { s.status with scanWr := if s.state = .idle then s.status.scanWr else true }
            record := if s.state = .idle then s.record else s.record ++ [⟨.scanWr, .fbWr idx w⟩]
            responses := s.responses ++ [.written]
            draws := s.draws + 1 }

/-- R137, with the frame: each channel is stored through the gamma table and bits 31:24 unchanged. -/
def Obligations.FbgWriteStoresTheGammaWord : Prop :=
  ∀ (s : State) (idx : BitVec 10) (w : Word), ∃ t v, exec (.fbgWr idx w) s = .next t ∧
    v.toNat = w.toNat / 2 ^ 24 * 2 ^ 24 + (lut (w.extractLsb' 16 8)).toNat * 2 ^ 16 +
      (lut (w.extractLsb' 8 8)).toNat * 2 ^ 8 + (lut (w.extractLsb' 0 8)).toNat ∧
    (∀ j, t.fb j = if j = idx then some v else s.fb j) ∧
    (∀ a, a < 4 * idx.toNat ∨ 4 * idx.toNat + 4 ≤ a → t.mem.read a = s.mem.read a) ∧
    t = { s with
            mem := t.mem
            status := { s.status with scanWr := if s.state = .idle then s.status.scanWr else true }
            record := if s.state = .idle then s.record else s.record ++ [⟨.scanWr, .fbgWr idx w⟩]
            responses := s.responses ++ [.written]
            draws := s.draws + 1 }

/-- R134: `zext_32(LUT[i])`, and nothing else. -/
def Obligations.LutReadReturnsTheEntry : Prop :=
  ∀ (s : State) (idx : BitVec 8), ∃ r : Word, exec (.lutRd idx) s = .next (answered s r) ∧ r.toNat = (lut idx).toNat

/-- R130: the table holds the exact real power, floored. -/
def Obligations.LutIsTheFlooredPower : Prop :=
  ∀ idx : BitVec 8, ((lut idx).toNat : ℤ) = ⌊(255 : ℝ) * ((idx.toNat : ℝ) / 255) ^ (1.6 : ℝ)⌋

/-- R132: the properties of the table. -/
def Obligations.LutIsMonotoneWithFixedEnds : Prop :=
  (∀ i j : BitVec 8, i.toNat ≤ j.toNat → (lut i).toNat ≤ (lut j).toNat) ∧ lut 0#8 = 0#8 ∧ lut 255#8 = 255#8 ∧
    (∀ i : BitVec 8, (lut i).toNat ≤ i.toNat ∧ ((lut i).toNat = i.toNat ↔ i = 0#8 ∨ i = 255#8)) ∧
    (∀ i : BitVec 8, lut i = 0#8 ↔ i.toNat ≤ 7) ∧ (∀ i : BitVec 8, lut i = 1#8 ↔ 8 ≤ i.toNat ∧ i.toNat ≤ 12) ∧
    ∀ i : BitVec 8, i ≠ 255#8 → (lut (i + 1#8)).toNat ≤ (lut i).toNat + 2

/-- R191: for both pixels and each channel, the eight bits driven over the planes, weighted, are the channel. -/
def Obligations.PlanesOfAPixelSumToItsChannels : Prop :=
  ∀ top bot : Word,
    ∑ p : Fin 8, (planeColours top bot (BitVec.ofNat 3 p)).topA.toNat * 2 ^ p.val = top.toNat % 256 ∧
    ∑ p : Fin 8, (planeColours top bot (BitVec.ofNat 3 p)).topB.toNat * 2 ^ p.val = top.toNat / 256 % 256 ∧
    ∑ p : Fin 8, (planeColours top bot (BitVec.ofNat 3 p)).topC.toNat * 2 ^ p.val = top.toNat / 65536 % 256 ∧
    ∑ p : Fin 8, (planeColours top bot (BitVec.ofNat 3 p)).botA.toNat * 2 ^ p.val = bot.toNat % 256 ∧
    ∑ p : Fin 8, (planeColours top bot (BitVec.ofNat 3 p)).botB.toNat * 2 ^ p.val = bot.toNat / 256 % 256 ∧
    ∑ p : Fin 8, (planeColours top bot (BitVec.ofNat 3 p)).botC.toNat * 2 ^ p.val = bot.toNat / 65536 % 256

/-! ### The control and status registers -/

/-- R255. -/
def Obligations.CtrlReadReturnsTheEnables : Prop :=
  ∀ s : State, ∃ r : Word, exec .ctrlRd s = .next (answered s r) ∧
    r.toNat = 4 * s.ctrl.ieErr.toNat + 2 * s.ctrl.ieFrame.toNat

/-- R251, R211: the enables are rewritten; `GO` starts a frame in `IDLE` and is ignored and flagged inside one. -/
def Obligations.CtrlWriteSetsEnablesAndGoes : Prop :=
  ∀ (s : State) (w : Word),
    (w.getLsbD 0 = false → exec (.ctrlWr w) s =
      .next { s with ctrl := ⟨w.getLsbD 1, w.getLsbD 2⟩, responses := s.responses ++ [.written], draws := s.draws + 1 }) ∧
    (w.getLsbD 0 = true → s.state = .idle → exec (.ctrlWr w) s =
      .next { s with
                ctrl := ⟨w.getLsbD 1, w.getLsbD 2⟩
                baseAct := s.base
                s := 0#4
                p := 0#3
                x := 0#5
                state := .row
                trace := emitted s (BitVec.ofNat 32 (0x10000000 + s.base.toNat))
                responses := s.responses ++ [.written]
                draws := s.draws + 1 }) ∧
    (w.getLsbD 0 = true → s.state ≠ .idle → exec (.ctrlWr w) s =
      .next { s with
                ctrl := ⟨w.getLsbD 1, w.getLsbD 2⟩
                status := { s.status with goIgn := true }
                record := s.record ++ [⟨.goIgn, .ctrlWr w⟩]
                responses := s.responses ++ [.written]
                draws := s.draws + 1 })

/-- R252. -/
def Obligations.StatusReadAssemblesTheFlags : Prop :=
  ∀ s : State, ∃ r : Word, exec .statusRd s = .next (answered s r) ∧
    r.toNat = (if s.state = .idle then 0 else 1) + 2 * s.status.frameDone.toNat + 4 * s.status.scanWr.toNat +
      8 * s.status.goIgn.toNat + 16 * s.status.busErr.toNat

/-- R253: a written 1 clears its flag, everything else stays. -/
def Obligations.StatusWriteClearsTheWrittenOnes : Prop :=
  ∀ (s : State) (w : Word), exec (.statusWr w) s =
    .next { s with
              status :=
                { frameDone := if w.getLsbD 1 then false else s.status.frameDone
                  scanWr := if w.getLsbD 2 then false else s.status.scanWr
                  goIgn := if w.getLsbD 3 then false else s.status.goIgn
                  busErr := if w.getLsbD 4 then false else s.status.busErr }
              responses := s.responses ++ [.written]
              draws := s.draws + 1 }

/-- R256. -/
def Obligations.BaseReadReturnsTheProgrammedUnit : Prop :=
  ∀ s : State, ∃ r : Word, exec .baseRd s = .next (answered s r) ∧ r.toNat = s.base.toNat

/-- R254: the low 16 bits are stored, 0 as 1. -/
def Obligations.BaseWriteStoresAnyUnitButZero : Prop :=
  ∀ (s : State) (w : Word), ∃ b : BitVec 16,
    exec (.baseWr w) s = .next { s with base := b, responses := s.responses ++ [.written], draws := s.draws + 1 } ∧
    b.toNat = if w.toNat % 65536 = 0 then 1 else w.toNat % 65536

/-- R257. -/
def Obligations.FramesReadReturnsTheCount : Prop :=
  ∀ s : State, exec .framesRd s = .next (answered s s.frames)

/-- R258, with the codes of R23. -/
def Obligations.ScanposReadReturnsThePosition : Prop :=
  ∀ s : State, ∃ r : Word, exec .scanposRd s = .next (answered s r) ∧
    r.toNat = (match s.state with
      | .idle => 0 | .row => 1 | .col => 2 | .clk => 3 | .lat => 4 | .enon => 5 | .hold => 6 | .enoff => 7 | .fend => 8) *
        2 ^ 24 + s.s.toNat * 2 ^ 16 + s.p.toNat * 2 ^ 8 + s.x.toNat

/-- R39: the levels of the lines, with `CLK` and `LAT` reading 0, and the IRQ line of R42. -/
def Obligations.LinesReadReturnsTheLevels : Prop :=
  State.reset.linesWord = 0#32 ∧
  ∀ s : State, ∃ r : Word, exec .linesRd s = .next (answered s r) ∧
    r.toNat = s.lines.addr0.toNat + 2 * s.lines.addr1.toNat + 4 * s.lines.addr2.toNat + 8 * s.lines.addr3.toNat +
      16 * lines6 s.lines.colours + 2 ^ 12 * s.lines.en.toNat +
      2 ^ 13 * (if (s.ctrl.ieFrame = true ∧ s.status.frameDone = true) ∨
        (s.ctrl.ieErr = true ∧ (s.status.scanWr = true ∨ s.status.goIgn = true ∨ s.status.busErr = true)) then 1 else 0)

/-- R260, R261. -/
def Obligations.ErrorRegistersReadBack : Prop :=
  ∀ s : State,
    (∃ r : Word, exec .errcauseRd s = .next (answered s r) ∧ r.toNat = s.errCause.toNat) ∧
    ∃ r : Word, exec .erraddrRd s = .next (answered s r) ∧ r.toNat = s.errKey.toNat

/-- R69: a host read of a register, of the gamma table or of a written pixel changes nothing but its own answer. -/
def Obligations.HostReadsHaveNoSideEffect : Prop :=
  ∀ (i : Instr) (s : State), i.isEvent = false → accessOf i = .read → isBusError i = false →
    (∀ idx, i = .fbRd idx ∨ i = .fbgRd idx → (s.fb idx).isSome = true) → ∃ r, exec i s = .next (answered s r)

/-- R69, for every host read that is not refused, also of an unwritten word: it changes nothing of the block, and issued
again with no step between it answers the same word. -/
def Obligations.HostReadsAreIdempotent : Prop :=
  ∀ (i : Instr) (s : State), i.isEvent = false → accessOf i = .read → isBusError i = false →
    ∃ (r : Word) (t u : State), exec i s = .next t ∧ exec i t = .next u ∧
      t = { s with record := t.record, responses := s.responses ++ [.read r] } ∧
      u = { s with record := u.record, responses := s.responses ++ [.read r, .read r] }

/-- R42: the IRQ line is the level of the enabled flags, and `LINES_RD` shows it in bit 13. -/
def Obligations.IrqFollowsTheEnabledFlags : Prop :=
  ∀ s : State, (s.irq = true ↔ (s.ctrl.ieFrame = true ∧ s.status.frameDone = true) ∨
      (s.ctrl.ieErr = true ∧ (s.status.scanWr = true ∨ s.status.goIgn = true ∨ s.status.busErr = true))) ∧
    s.linesWord.getLsbD 13 = s.irq

/-! ### The scan -/

/-- R38: the weights are exact and fit 24 bits. -/
def Obligations.WeightsDoubleExactly : Prop :=
  ∀ (base : BitVec 16) (p : BitVec 3), (weight base p).toNat = base.toNat * 2 ^ p.toNat ∧
    (weight base p).toNat ≤ 8388480 ∧ ∀ q : BitVec 3, q.toNat = p.toNat + 1 → (weight base q).toNat = 2 * (weight base p).toNat

/-- R211, as the instruction `FRAME_START` (log entry 12). -/
def Obligations.FrameStartLatchesTheUnit : Prop :=
  ∀ s : State, s.state = .idle → exec (.frameStart s.base) s =
    .next { s with
              baseAct := s.base
              s := 0#4
              p := 0#3
              x := 0#5
              state := .row
              trace := emitted s (BitVec.ofNat 32 (0x10000000 + s.base.toNat))
              draws := s.draws + 1 }

/-- The model's reading of the row `FRAME_START` (log entry 12): it is what a `GO` that keeps the enables does, but for
the host's answer. -/
def Obligations.FrameStartEqualsGoKeepingTheEnables : Prop :=
  ∀ (s : State) (w : Word), s.state = .idle → w.getLsbD 0 = true → w.getLsbD 1 = s.ctrl.ieFrame →
    w.getLsbD 2 = s.ctrl.ieErr → ∃ t, exec (.frameStart s.base) s = .next t ∧
      exec (.ctrlWr w) s = .next { t with responses := t.responses ++ [.written] }

/-- R180, R181: the `ROW` step drives the bits of `s`; the four lines decode back to `s`. -/
def Obligations.RowStepDrivesTheAddress : Prop :=
  ∀ s : State, s.state = .row → ∃ (t : State) (δ : Nat), exec (.addr s.s) s = .next t ∧
    t = { s with
            lines := { s.lines with
                        addr0 := s.s.getLsbD 0, addr1 := s.s.getLsbD 1, addr2 := s.s.getLsbD 2, addr3 := s.s.getLsbD 3 }
            trace := emitted s (BitVec.ofNat 32 (0x20000000 + s.s.toNat))
            t := s.t + δ
            draws := s.draws + 1
            state := .col } ∧
    8 * t.lines.addr3.toNat + 4 * t.lines.addr2.toNat + 2 * t.lines.addr1.toNat + t.lines.addr0.toNat = s.s.toNat ∧
    t.linesWord.toNat % 16 = s.s.toNat

/-- R190: the `COL` step drives bit `p` of the six channels; an unwritten word counts as some value and the step is
recorded once. -/
def Obligations.ColStepDrivesTheColumn : Prop :=
  ∀ s : State, s.state = .col → ∃ (top bot : Word) (l : BitVec 6) (δ : Nat),
    (∀ w, s.fb (topPixel s) = some w → top = w) ∧ (∀ w, s.fb (bottomPixel s) = some w → bot = w) ∧
    l.toNat = lines6 (columnLines top bot s.p.toNat) ∧
    exec (.color s.s s.p s.x l) s =
      .next { s with
                lines := { s.lines with colours := columnLines top bot s.p.toNat }
                trace := emitted s (scanWord 3 s.s.toNat s.p.toNat s.x.toNat l.toNat)
                record :=
                  if (s.fb (topPixel s)).isSome ∧ (s.fb (bottomPixel s)).isSome then s.record
                  else s.record ++ [⟨.uninitFbRead, .color s.s s.p s.x l⟩]
                t := s.t + δ
                draws := s.draws + 1
                state := .clk }

/-- R194: the `CLK` step shifts the colour lines into the panel and moves to the next column or the latch. -/
def Obligations.ClkStepShiftsThePanel : Prop :=
  ∀ s : State, s.state = .clk → ∃ (sr : Vector Colours 32) (δ : Nat),
    exec (.clk s.s s.p s.x) s =
      .next { s with
                lines := { s.lines with clk := false }
                shiftReg := sr
                trace := emitted s (scanWord 4 s.s.toNat s.p.toNat s.x.toNat 0)
                t := s.t + δ
                draws := s.draws + 1
                x := if s.x = 31#5 then s.x else BitVec.ofNat 5 (s.x.toNat + 1)
                state := if s.x = 31#5 then .lat else .col } ∧
    (∀ k : Fin 31, sr[k.castSucc] = s.shiftReg[k.succ]) ∧ sr[(31 : Fin 32)] = s.lines.colours

/-- R214: the `LAT` step copies the panel's shift register to its output register. -/
def Obligations.LatStepLatchesThePanel : Prop :=
  ∀ s : State, s.state = .lat → ∃ δ : Nat, exec (.lat s.s s.p) s =
    .next { s with
              lines := { s.lines with lat := false }
              outReg := s.shiftReg
              trace := emitted s (scanWord 5 s.s.toNat s.p.toNat 0 0)
              t := s.t + δ
              draws := s.draws + 1
              state := .enon }

/-- R215: the `ENON` step enables the display in zero time. -/
def Obligations.EnonStepEnablesTheDisplay : Prop :=
  ∀ s : State, s.state = .enon → exec (.enOn s.s s.p) s =
    .next { s with
              lines := { s.lines with en := true }
              trace := emitted s (scanWord 6 s.s.toNat s.p.toNat 0 0)
              draws := s.draws + 1
              state := .hold }

/-- R216: the `HOLD` step lights the addressed rows for exactly `BASE_ACT << p` ticks, then emits. -/
def Obligations.HoldStepLightsForTheWeight : Prop :=
  ∀ (s : State) (d : Nat), s.state = .hold → d = s.baseAct.toNat * 2 ^ s.p.toNat →
    ∃ on' : Vector (Vector OnTime 32) 32, exec (.hold (BitVec.ofNat 24 d)) s =
      .next { s with
                on := on'
                t := s.t + d
                trace := s.trace ++ [⟨BitVec.ofNat 32 (0x70000000 + d), s.t + d⟩]
                draws := s.draws + 1
                state := .enoff } ∧
      (s.lines.en = false → on' = s.on) ∧
      (s.lines.en = true → ∀ (r c : Fin 32) (a : Nat), a = s.lines.address.toNat →
        on'[r][c] =
          if r.val = a then
            ⟨s.on[r][c].a + (if s.outReg[c].topA then d else 0), s.on[r][c].b + (if s.outReg[c].topB then d else 0),
              s.on[r][c].c + (if s.outReg[c].topC then d else 0)⟩
          else if r.val = a + 16 then
            ⟨s.on[r][c].a + (if s.outReg[c].botA then d else 0), s.on[r][c].b + (if s.outReg[c].botB then d else 0),
              s.on[r][c].c + (if s.outReg[c].botC then d else 0)⟩
          else s.on[r][c])

/-- R219: the `ENOFF` step blanks the display in zero time and moves to the next plane, row-pair or the frame's end. -/
def Obligations.EnoffStepBlanksAndAdvances : Prop :=
  ∀ s : State, s.state = .enoff → ∃ t, exec (.enOff s.s s.p) s = .next t ∧
    t = { s with
            lines := { s.lines with en := false }
            trace := emitted s (scanWord 8 s.s.toNat s.p.toNat 0 0)
            draws := s.draws + 1
            state := t.state
            s := t.s
            p := t.p
            x := t.x } ∧
    (s.p.toNat < 7 → t.state = .col ∧ t.s = s.s ∧ t.p.toNat = s.p.toNat + 1 ∧ t.x = 0#5) ∧
    (s.p.toNat = 7 → s.s.toNat < 15 → t.state = .row ∧ t.s.toNat = s.s.toNat + 1 ∧ t.p = 0#3 ∧ t.x = 0#5) ∧
    (s.p.toNat = 7 → s.s.toNat = 15 → t.state = .fend ∧ t.s = s.s ∧ t.p = s.p ∧ t.x = s.x)

/-- R220: the `FEND` step counts the frame modulo 2^32, sets `FRAME_DONE` and returns to `IDLE`. -/
def Obligations.FendStepCompletesTheFrame : Prop :=
  ∀ s : State, s.state = .fend → ∃ (n : BitVec 28) (frames : BitVec 32) (δ : Nat),
    frames.toNat = (s.frames.toNat + 1) % 2 ^ 32 ∧ n.toNat = frames.toNat % 2 ^ 28 ∧
    exec (.frameEnd n) s =
      .next { s with
                frames := frames
                status := { s.status with frameDone := true }
                state := .idle
                trace := emitted s (BitVec.ofNat 32 (0x90000000 + n.toNat))
                t := s.t + δ
                draws := s.draws + 1 }

/-- R23, R97 with log entries 11 and 12: a micro-operation completes only as the engine's next step, else it is stuck. -/
def Obligations.MicroOperationsRunOnlyWhenNext : Prop :=
  (∀ (s : State) (i : Instr), i.isEvent = true → (∀ b, i ≠ .frameStart b) →
    ((∃ t, exec i s = .next t) ↔ s.engineNext = some i) ∧ (s.engineNext ≠ some i → exec i s = .fault .stepNotEnabled)) ∧
  ∀ (s : State) (b : BitVec 16), ((∃ t, exec (.frameStart b) s = .next t) ↔ s.state = .idle ∧ s.base = b) ∧
    (¬(s.state = .idle ∧ s.base = b) → exec (.frameStart b) s = .fault .stepNotEnabled)

/-- R222: the engine's next step completes and takes the row of the table that applies; in `IDLE` it has none and a `GO`
leaves for `ROW`. -/
def Obligations.SequencerFollowsTheTransitionTable : Prop :=
  (∀ s : State, s.state ≠ .idle → ∃ i t, s.engineNext = some i ∧ exec i s = .next t ∧
    position t = transition s.state s.s.toNat s.p.toNat s.x.toNat) ∧
  (∀ s : State, s.state = .idle → s.engineNext = none) ∧
  ∀ (s : State) (w : Word), s.state = .idle → w.getLsbD 0 = true → ∃ t, exec (.ctrlWr w) s = .next t ∧
    position t = transition .idle s.s.toNat s.p.toNat s.x.toNat

/-! ### Rules of the whole machine -/

/-- R300, R218, R41: no host transaction drives a line, takes time, moves the panel or lights it. -/
def Obligations.HostStepsLeaveLinesPanelAndTime : Prop :=
  ∀ (i : Instr) (s t : State), i.isEvent = false → exec i s = .next t →
    t.lines = s.lines ∧ t.t = s.t ∧ t.shiftReg = s.shiftReg ∧ t.outReg = s.outReg ∧ t.on = s.on ∧ t.agenda = s.agenda

/-- R70, R152, R229: no engine step writes the framebuffer, a host register, an error register, a flag but `FRAME_DONE`, or
an answer to the host. -/
def Obligations.EngineStepsLeaveHostStateAndFramebuffer : Prop :=
  ∀ (i : Instr) (s t : State), i.isEvent = true → exec i s = .next t →
    t.mem = s.mem ∧ t.ctrl = s.ctrl ∧ t.base = s.base ∧ t.errCause = s.errCause ∧ t.errKey = s.errKey ∧
      t.status.scanWr = s.status.scanWr ∧ t.status.goIgn = s.status.goIgn ∧ t.status.busErr = s.status.busErr ∧
      t.responses = s.responses ∧ t.agenda = s.agenda

/-- R12, R41: each step of the engine emits exactly its event, stamped with the time the rule gives, and a host step emits
nothing but a `FRAME_START`. -/
def Obligations.EachStepEmitsItsEventOnTime : Prop :=
  (∀ (i : Instr) (s t : State), i.isEvent = true → exec i s = .next t →
    (∃ stamp, t.trace = s.trace ++ [⟨encodeEvent i, stamp⟩] ∧
      match i with
      | .hold d => stamp = s.t + d.toNat ∧ t.t = stamp
      | .frameStart _ | .enOn _ _ | .enOff _ _ => stamp = s.t ∧ t.t = s.t
      | _ => stamp = s.t ∧ s.t ≤ t.t)) ∧
  ∀ (i : Instr) (s t : State), i.isEvent = false → exec i s = .next t →
    t.trace = s.trace ∨ (s.state = .idle ∧ t.state = .row ∧ t.trace = s.trace ++ [⟨encodeEvent (.frameStart s.base), s.t⟩])

/-- R32, R296: a status flag changes only by the step that sets it or by a `STATUS_WR` that writes its 1. -/
def Obligations.StatusFlagsChangeOnlyAsListed : Prop :=
  ∀ (i : Instr) (s t : State), exec i s = .next t →
    (t.status.frameDone = s.status.frameDone ∨ (t.status.frameDone = true ∧ ∃ n, i = .frameEnd n) ∨
      (t.status.frameDone = false ∧ ∃ w, i = .statusWr w ∧ w.getLsbD 1 = true)) ∧
    (t.status.scanWr = s.status.scanWr ∨
      (t.status.scanWr = true ∧ s.state ≠ .idle ∧ ∃ idx w, i = .fbWr idx w ∨ i = .fbgWr idx w) ∨
      (t.status.scanWr = false ∧ ∃ w, i = .statusWr w ∧ w.getLsbD 2 = true)) ∧
    (t.status.goIgn = s.status.goIgn ∨
      (t.status.goIgn = true ∧ s.state ≠ .idle ∧ ∃ w, i = .ctrlWr w ∧ w.getLsbD 0 = true) ∨
      (t.status.goIgn = false ∧ ∃ w, i = .statusWr w ∧ w.getLsbD 3 = true)) ∧
    (t.status.busErr = s.status.busErr ∨ (t.status.busErr = true ∧ isBusError i = true) ∨
      (t.status.busErr = false ∧ ∃ w, i = .statusWr w ∧ w.getLsbD 4 = true))

/-- R21, R22, R24, R25, R33, R34, R40, R152, R182, R31: who writes each register, the framebuffer and the address lines. -/
def Obligations.RegistersHaveOnlyTheirWriters : Prop :=
  ∀ (i : Instr) (s t : State), exec i s = .next t →
    (t.s ≠ s.s ∨ t.p ≠ s.p → startsFrame i ∨ ∃ r p, i = .enOff r p) ∧
    (t.x ≠ s.x → startsFrame i ∨ (∃ r p c, i = .clk r p c) ∨ ∃ r p, i = .enOff r p) ∧
    (t.baseAct ≠ s.baseAct → startsFrame i) ∧ (t.base ≠ s.base → ∃ w, i = .baseWr w) ∧
    (t.frames ≠ s.frames → ∃ n, i = .frameEnd n) ∧
    (t.errCause ≠ s.errCause ∨ t.errKey ≠ s.errKey → isBusError i = true) ∧
    (t.mem ≠ s.mem → ∃ idx w, i = .fbWr idx w ∨ i = .fbgWr idx w) ∧ (t.ctrl ≠ s.ctrl → ∃ w, i = .ctrlWr w) ∧
    (t.lines.address ≠ s.lines.address → ∃ r, i = .addr r) ∧ (t.lines.colours ≠ s.lines.colours → ∃ r p c l, i = .color r p c l) ∧
    (t.lines.en ≠ s.lines.en → ∃ r p, i = .enOn r p ∨ i = .enOff r p) ∧ (t.on ≠ s.on → ∃ d, i = .hold d)

/-- R298: until a reset, the fault record only grows. -/
def Obligations.FaultRecordOnlyGrows : Prop :=
  ∀ s t : State, step s = .next t → s.agenda.head? ≠ some .reset → ∃ more, t.record = s.record ++ more

/-- R229, R355: no host transaction, engine step or reset stops the machine. -/
def Obligations.EveryHostEngineAndResetTurnCompletes : Prop :=
  ∀ s : State, (∀ w rest, s.agenda ≠ .event w :: rest) → ∃ t, step s = .next t

/-- R193: framebuffers that differ only in bits 31:24 drive the engine alike. -/
def Obligations.IgnoredBitsNeverReachALine : Prop :=
  ∀ (s t : State) (m : Memory) (i : Instr),
    (∀ idx, (s.fb idx).map (fun w : Word => w.extractLsb' 0 24) =
      (State.fb { s with mem := m } idx).map (fun w : Word => w.extractLsb' 0 24)) →
    i.isEvent = true → exec i s = .next t → exec i { s with mem := m } = .next { t with mem := m }

/-- The invariant of Safety.lean holds at reset. -/
def Obligations.InvariantHoldsAtReset : Prop := State.reset.Inv

/-- Every step keeps the invariant: canonical framebuffer, blanking, resting pulses, legal units, stable address, placed
counters, legal causes, legal trace, agreeing error registers. -/
def Obligations.EveryStepKeepsTheInvariant : Prop := ∀ s t : State, s.Inv → step s = .next t → t.Inv

/-- R217: from `ENON`, three engine steps enable the display for exactly the weight and blank it. -/
def Obligations.HoldLastsExactlyTheWeight : Prop :=
  ∀ (s : State) (d : Nat), s.agenda = [] → s.state = .enon → d = s.baseAct.toNat * 2 ^ s.p.toNat →
    ∃ t, core.run 3 s = .next t ∧ t.t = s.t + d ∧ t.lines.en = false ∧
      t.trace = s.trace ++ [⟨scanWord 6 s.s.toNat s.p.toNat 0 0, s.t⟩, ⟨BitVec.ofNat 32 (0x70000000 + d), s.t + d⟩,
        ⟨scanWord 8 s.s.toNat s.p.toNat 0 0, s.t + d⟩]

/-- R192, R321: one plane's 32 columns and its latch load the panel's output register with that plane of the row-pair. -/
def Obligations.PlanePassLoadsTheOutputRegister : Prop :=
  ∀ s : State, s.agenda = [] → s.state = .col → s.x = 0#5 → s.allWritten →
    ∃ t, core.run 65 s = .next t ∧ position t = (.enon, s.s.toNat, s.p.toNat, 31) ∧ t.mem = s.mem ∧ t.on = s.on ∧
      t.record = s.record ∧ t.trace.length = s.trace.length + 65 ∧
      ∀ (k : Fin 32) (top bot : Word), s.fb (BitVec.ofNat 10 (32 * s.s.toNat + k.val)) = some top →
        s.fb (BitVec.ofNat 10 (32 * (s.s.toNat + 16) + k.val)) = some bot →
        t.outReg[k] = columnLines top bot s.p.toNat

/-- R223, R221, R227: with the framebuffer written and left alone, one frame's 8721 engine steps give every pixel and channel
exactly `BASE_ACT` times its value in ticks, and count the frame. -/
def Obligations.FrameGivesEachPixelItsExactLight : Prop :=
  ∀ s : State, s.agenda = [] → position s = (.row, 0, 0, 0) → s.allWritten →
    ∃ t, core.run 8721 s = .next t ∧ position t = (.idle, 15, 7, 31) ∧ t.frames = s.frames + 1#32 ∧
      t.status.frameDone = true ∧ t.mem = s.mem ∧ t.record = s.record ∧ t.lines.en = false ∧
      t.trace.length = s.trace.length + 8721 ∧ s.t + 4080 * s.baseAct.toNat ≤ t.t ∧
      ∀ (r c : Fin 32) (v : Word), s.fb (BitVec.ofNat 10 (32 * r.val + c.val)) = some v →
        t.on[r][c] =
          ⟨s.on[r][c].a + s.baseAct.toNat * (v.toNat % 256), s.on[r][c].b + s.baseAct.toNat * (v.toNat / 256 % 256),
            s.on[r][c].c + s.baseAct.toNat * (v.toNat / 65536 % 256)⟩

/-- R61: the interconnect routes an address to the block exactly inside the window. -/
def Obligations.BusAddressesRouteToTheWindow : Prop :=
  ∀ a : Nat, (∀ off, routeAddress a = some off ↔
      Config.blockBase ≤ a ∧ a < Config.blockBase + 0x4000 ∧ off.toNat = a - Config.blockBase)
end

