-- ==== Sys2Proof/Laws/Bits.lean ====
section
/-!
SUPPORT. Bit-vector facts the encodings and the read words rest on.
-/
namespace Sys2Proof

/-- Concatenation as arithmetic. -/
theorem toNat_append_add {n m : Nat} (a : BitVec n) (b : BitVec m) :
    (a ++ b).toNat = a.toNat * 2 ^ m + b.toNat := by
  rw [BitVec.toNat_append, ← Nat.shiftLeft_add_eq_or_of_lt b.isLt, Nat.shiftLeft_eq]

/-- The key of a transaction as arithmetic (R91). -/
theorem mkKey_toNat (size : BitVec 2) (w : Bool) (off : Offset) :
    (mkKey size w off).toNat = size.toNat * 2 ^ 15 + w.toNat * 2 ^ 14 + off.toNat := by
  unfold mkKey
  rw [toNat_append_add, toNat_append_add, BitVec.toNat_ofBool]
  ring

/-- An event with `S`, `P`, `X` and low bits as arithmetic (R96). -/
theorem scanEvent_toNat (kind row : BitVec 4) (plane : BitVec 3) (col : BitVec 5) (low : BitVec 8) :
    (scanEvent kind row plane col low).toNat =
      kind.toNat * 2 ^ 28 + row.toNat * 2 ^ 20 + plane.toNat * 2 ^ 16 + col.toNat * 2 ^ 8 + low.toNat := by
  unfold scanEvent
  iterate 7 rw [toNat_append_add]
  simp only [BitVec.toNat_ofNat, Nat.zero_mod]
  ring

/-- The lines of a colour value as arithmetic (R96). -/
theorem Machine.Colours.bits_toNat (c : Machine.Colours) :
    c.bits.toNat = c.topA.toNat + 2 * c.topB.toNat + 4 * c.topC.toNat + 8 * c.botA.toNat + 16 * c.botB.toNat +
      32 * c.botC.toNat := by
  unfold Machine.Colours.bits
  iterate 5 rw [toNat_append_add]
  simp only [BitVec.toNat_ofBool]
  ring

/-- Colour lines and `LINES6` carry the same six bits (R96). -/
theorem Machine.coloursOfBits_bits (c : Machine.Colours) : Machine.coloursOfBits c.bits = c := by
  obtain ⟨a, b, d, e, f, g⟩ := c
  revert a b d e f g
  decide

/-- `BASE_RESET` is legal: `1..65535` (R7, R33). -/
theorem Config.baseReset_toNat : Config.baseReset.toNat = Config.baseResetLessOne.val + 1 := by
  have h := Config.baseResetLessOne.isLt
  unfold Config.baseReset
  rw [BitVec.toNat_ofNat, Nat.mod_eq_of_lt (by omega)]

theorem Config.baseReset_ne_zero : Config.baseReset ≠ 0#16 := by
  intro h
  have := Config.baseReset_toNat
  simp [h] at this

/-- The weight as arithmetic: it never overflows 24 bits (R38). -/
theorem Machine.weight_toNat (base : BitVec 16) (p : BitVec 3) :
    (Machine.weight base p).toNat = base.toNat * 2 ^ p.toNat := by
  have hb : base.toNat < 2 ^ 16 := base.isLt
  have hp : p.toNat < 8 := p.isLt
  unfold Machine.weight
  rw [BitVec.toNat_shiftLeft, BitVec.toNat_setWidth, Nat.shiftLeft_eq, Nat.mod_eq_of_lt (a := base.toNat) (by omega)]
  apply Nat.mod_eq_of_lt
  calc base.toNat * 2 ^ p.toNat ≤ base.toNat * 2 ^ 7 := Nat.mul_le_mul_left _ (Nat.pow_le_pow_right (by omega) (by omega))
    _ < 2 ^ 24 := by omega

end Sys2Proof
end

