-- ==== Sys2Proof/Laws/Memory.lean ====
section
/-!
SUPPORT. The laws of the framebuffer's bytes and words: a read after a write, everything else unchanged, and the
canonical form kept.
-/
namespace Sys2Proof.Machine

theorem Memory.read_write_same (m : Memory) (a : Nat) (b : Byte) : (m.write a b).read a = some b := by
  induction m with
  | nil => simp [Memory.write, Memory.read]
  | cons c m ih =>
    obtain ⟨a', b'⟩ := c
    simp only [Memory.write]
    split
    · simp [Memory.read]
    · split
      · simp [Memory.read]
      · simp [Memory.read, *]

theorem Memory.read_write_other (m : Memory) (a : Nat) (b : Byte) (c : Nat) (h : c ≠ a) :
    (m.write a b).read c = m.read c := by
  induction m with
  | nil => simp [Memory.write, Memory.read, h]
  | cons d m ih =>
    obtain ⟨a', b'⟩ := d
    simp only [Memory.write]
    split
    · simp [Memory.read, h]
    · split
      · rename_i h1 h2
        subst h2
        simp [Memory.read, h]
      · simp [Memory.read, ih]

/-- What a word write does to a byte. -/
theorem Memory.read_writeWord (m : Memory) (a : Nat) (w : Word) (c : Nat) :
    (m.writeWord a w).read c =
      if c = a then some (wordByte w 0) else if c = a + 1 then some (wordByte w 1)
      else if c = a + 2 then some (wordByte w 2) else if c = a + 3 then some (wordByte w 3) else m.read c := by
  unfold Memory.writeWord
  by_cases h3 : c = a + 3
  · subst h3; simp [Memory.read_write_same]
  rw [Memory.read_write_other _ _ _ _ h3]
  by_cases h2 : c = a + 2
  · subst h2; simp [Memory.read_write_same]
  rw [Memory.read_write_other _ _ _ _ h2]
  by_cases h1 : c = a + 1
  · subst h1; simp [Memory.read_write_same]
  rw [Memory.read_write_other _ _ _ _ h1]
  by_cases h0 : c = a
  · subst h0; simp [Memory.read_write_same]
  rw [Memory.read_write_other _ _ _ _ h0]
  simp [h0, h1, h2, h3]

/-- A byte outside the four written ones reads as before. -/
theorem Memory.read_writeWord_outside (m : Memory) (a : Nat) (w : Word) (c : Nat) (h : c < a ∨ a + 4 ≤ c) :
    (m.writeWord a w).read c = m.read c := by
  rw [Memory.read_writeWord, if_neg (by omega), if_neg (by omega), if_neg (by omega), if_neg (by omega)]

/-- The four bytes of a word make it up (R65). -/
theorem wordOfBytes_wordByte (w : Word) :
    wordOfBytes (wordByte w 0) (wordByte w 1) (wordByte w 2) (wordByte w 3) = w := by
  apply BitVec.eq_of_getLsbD_eq
  intro i hi
  simp only [wordOfBytes, wordByte]
  repeat rw [BitVec.getLsbD_append]
  interval_cases i <;> simp

theorem Memory.readWord_writeWord_same (m : Memory) (a : Nat) (w : Word) : (m.writeWord a w).readWord a = some w := by
  simp [Memory.readWord, Memory.read_writeWord, wordOfBytes_wordByte]

theorem Memory.readWord_writeWord_other (m : Memory) (a : Nat) (w : Word) (c : Nat) (h : c + 4 ≤ a ∨ a + 4 ≤ c) :
    (m.writeWord a w).readWord c = m.readWord c := by
  simp only [Memory.readWord]
  rw [Memory.read_writeWord_outside _ _ _ c (by omega), Memory.read_writeWord_outside _ _ _ (c + 1) (by omega),
    Memory.read_writeWord_outside _ _ _ (c + 2) (by omega), Memory.read_writeWord_outside _ _ _ (c + 3) (by omega)]

/-- A pixel reads as last written. -/
@[simp] theorem State.fb_storePixel_same (st : State) (idx : BitVec 10) (w : Word) :
    (st.storePixel idx w).fb idx = some w := Memory.readWord_writeWord_same _ _ _

/-- The other pixels are left alone. -/
theorem State.fb_storePixel_other (st : State) (idx j : BitVec 10) (w : Word) (h : j ≠ idx) :
    (st.storePixel idx w).fb j = st.fb j := by
  apply Memory.readWord_writeWord_other
  have : j.toNat ≠ idx.toNat := fun e => h (BitVec.eq_of_toNat_eq e)
  simp only [pixelAddress]
  omega

/-! ### The canonical form -/

theorem Memory.write_rising (m : Memory) (a : Nat) (b : Byte) (h : m.Pairwise fun c d => c.1 < d.1) :
    (m.write a b).Pairwise (fun c d => c.1 < d.1) ∧ ∀ e ∈ m.write a b, e = (a, b) ∨ e ∈ m := by
  induction m with
  | nil => simp [Memory.write]
  | cons c m ih =>
    obtain ⟨a', b'⟩ := c
    obtain ⟨hc, hm⟩ := List.pairwise_cons.1 h
    obtain ⟨ih1, ih2⟩ := ih hm
    simp only [Memory.write]
    split
    · rename_i hlt
      refine ⟨List.pairwise_cons.2 ⟨fun e he => ?_, h⟩, fun e he => by simpa using he⟩
      rcases List.mem_cons.1 he with rfl | he
      · exact hlt
      · exact lt_trans hlt (hc e he)
    · split
      · rename_i h1 h2
        subst h2
        refine ⟨List.pairwise_cons.2 ⟨hc, hm⟩, fun e he => ?_⟩
        rcases List.mem_cons.1 he with rfl | he
        · exact .inl rfl
        · exact .inr (List.mem_cons_of_mem _ he)
      · rename_i h1 h2
        refine ⟨List.pairwise_cons.2 ⟨fun e he => ?_, ih1⟩, fun e he => ?_⟩
        · rcases ih2 e he with rfl | he
          · show a' < a; omega
          · exact hc e he
        · rcases List.mem_cons.1 he with rfl | he
          · exact .inr (List.mem_cons_self ..)
          · rcases ih2 e he with rfl | he
            · exact .inl rfl
            · exact .inr (List.mem_cons_of_mem _ he)

/-- What the canonical form says. -/
theorem Memory.wf_iff (m : Memory) :
    m.wf = true ↔ (m.Pairwise fun c d => c.1 < d.1) ∧ ∀ c ∈ m, c.1 < 4096 ∧ m.wordWritten c.1 = true := by
  simp [Memory.wf, List.all_eq_true]

theorem Memory.wordWritten_writeWord (m : Memory) (a : Nat) (w : Word) (c : Nat) (h : m.wordWritten c = true) :
    (m.writeWord a w).wordWritten c = true := by
  have mono : ∀ d, (m.read d).isSome = true → ((m.writeWord a w).read d).isSome = true := by
    intro d hd
    rw [Memory.read_writeWord]
    repeat' split
    all_goals simp_all
  simp only [Memory.wordWritten, Bool.and_eq_true] at h ⊢
  exact ⟨⟨⟨mono _ h.1.1.1, mono _ h.1.1.2⟩, mono _ h.1.2⟩, mono _ h.2⟩

/-- A pixel write keeps the canonical form. -/
theorem Memory.wf_writeWord (m : Memory) (idx : BitVec 10) (w : Word) (h : m.wf = true) :
    (m.writeWord (pixelAddress idx) w).wf = true := by
  rw [Memory.wf_iff] at h ⊢
  obtain ⟨hr, hm⟩ := h
  have hidx : idx.toNat < 1024 := idx.isLt
  have own : ∀ k < 4, (m.writeWord (pixelAddress idx) w).wordWritten (pixelAddress idx + k) = true := by
    intro k hk
    have hd : (pixelAddress idx + k) / 4 * 4 = pixelAddress idx := by simp only [pixelAddress]; omega
    simp [Memory.wordWritten, hd, Memory.read_writeWord]
  have s0 := Memory.write_rising m (pixelAddress idx) (wordByte w 0) hr
  have s1 := Memory.write_rising _ (pixelAddress idx + 1) (wordByte w 1) s0.1
  have s2 := Memory.write_rising _ (pixelAddress idx + 2) (wordByte w 2) s1.1
  have s3 := Memory.write_rising _ (pixelAddress idx + 3) (wordByte w 3) s2.1
  refine ⟨s3.1, fun e he => ?_⟩
  have key : (∃ k < 4, e.1 = pixelAddress idx + k) ∨ e ∈ m := by
    rcases s3.2 e he with rfl | he
    · exact .inl ⟨3, by omega, rfl⟩
    rcases s2.2 e he with rfl | he
    · exact .inl ⟨2, by omega, rfl⟩
    rcases s1.2 e he with rfl | he
    · exact .inl ⟨1, by omega, rfl⟩
    rcases s0.2 e he with rfl | he
    · exact .inl ⟨0, by omega, rfl⟩
    · exact .inr he
  rcases key with ⟨k, hk, hek⟩ | hem
  · rw [hek]
    refine ⟨?_, own k hk⟩
    simp only [pixelAddress]
    omega
  · exact ⟨(hm e hem).1, Memory.wordWritten_writeWord _ _ _ _ (hm e hem).2⟩

/-- The memory after reset is in the canonical form. -/
theorem Memory.wf_reset : State.reset.mem.wf = true := by decide

end Sys2Proof.Machine
end

