-- ==== Sys2Proof/Laws/State.lean ====
section
/-!
SUPPORT. What every state update does to every field, one lemma each, so that no later proof unfolds an update. Generated
from the list of fields; a field that an update does not name is unchanged.
-/
namespace Sys2Proof.Machine


/-! ### `emit` -/

@[simp] theorem State.emit_state (st : State) (i : Instr) : (st.emit i).state = st.state := rfl
@[simp] theorem State.emit_s (st : State) (i : Instr) : (st.emit i).s = st.s := rfl
@[simp] theorem State.emit_p (st : State) (i : Instr) : (st.emit i).p = st.p := rfl
@[simp] theorem State.emit_x (st : State) (i : Instr) : (st.emit i).x = st.x := rfl
@[simp] theorem State.emit_baseAct (st : State) (i : Instr) : (st.emit i).baseAct = st.baseAct := rfl
@[simp] theorem State.emit_mem (st : State) (i : Instr) : (st.emit i).mem = st.mem := rfl
@[simp] theorem State.emit_ctrl (st : State) (i : Instr) : (st.emit i).ctrl = st.ctrl := rfl
@[simp] theorem State.emit_status (st : State) (i : Instr) : (st.emit i).status = st.status := rfl
@[simp] theorem State.emit_base (st : State) (i : Instr) : (st.emit i).base = st.base := rfl
@[simp] theorem State.emit_frames (st : State) (i : Instr) : (st.emit i).frames = st.frames := rfl
@[simp] theorem State.emit_errCause (st : State) (i : Instr) : (st.emit i).errCause = st.errCause := rfl
@[simp] theorem State.emit_errKey (st : State) (i : Instr) : (st.emit i).errKey = st.errKey := rfl
@[simp] theorem State.emit_lines (st : State) (i : Instr) : (st.emit i).lines = st.lines := rfl
@[simp] theorem State.emit_t (st : State) (i : Instr) : (st.emit i).t = st.t := rfl
@[simp] theorem State.emit_shiftReg (st : State) (i : Instr) : (st.emit i).shiftReg = st.shiftReg := rfl
@[simp] theorem State.emit_outReg (st : State) (i : Instr) : (st.emit i).outReg = st.outReg := rfl
@[simp] theorem State.emit_on (st : State) (i : Instr) : (st.emit i).on = st.on := rfl
@[simp] theorem State.emit_trace (st : State) (i : Instr) : (st.emit i).trace = st.trace ++ [⟨encodeEvent i, st.t⟩] := rfl
@[simp] theorem State.emit_record (st : State) (i : Instr) : (st.emit i).record = st.record := rfl
@[simp] theorem State.emit_responses (st : State) (i : Instr) : (st.emit i).responses = st.responses := rfl
@[simp] theorem State.emit_agenda (st : State) (i : Instr) : (st.emit i).agenda = st.agenda := rfl
@[simp] theorem State.emit_draws (st : State) (i : Instr) : (st.emit i).draws = st.draws := rfl


/-! ### `advance` -/

@[simp] theorem State.advance_state (st : State) (d : Nat) : (st.advance d).state = st.state := rfl
@[simp] theorem State.advance_s (st : State) (d : Nat) : (st.advance d).s = st.s := rfl
@[simp] theorem State.advance_p (st : State) (d : Nat) : (st.advance d).p = st.p := rfl
@[simp] theorem State.advance_x (st : State) (d : Nat) : (st.advance d).x = st.x := rfl
@[simp] theorem State.advance_baseAct (st : State) (d : Nat) : (st.advance d).baseAct = st.baseAct := rfl
@[simp] theorem State.advance_mem (st : State) (d : Nat) : (st.advance d).mem = st.mem := rfl
@[simp] theorem State.advance_ctrl (st : State) (d : Nat) : (st.advance d).ctrl = st.ctrl := rfl
@[simp] theorem State.advance_status (st : State) (d : Nat) : (st.advance d).status = st.status := rfl
@[simp] theorem State.advance_base (st : State) (d : Nat) : (st.advance d).base = st.base := rfl
@[simp] theorem State.advance_frames (st : State) (d : Nat) : (st.advance d).frames = st.frames := rfl
@[simp] theorem State.advance_errCause (st : State) (d : Nat) : (st.advance d).errCause = st.errCause := rfl
@[simp] theorem State.advance_errKey (st : State) (d : Nat) : (st.advance d).errKey = st.errKey := rfl
@[simp] theorem State.advance_lines (st : State) (d : Nat) : (st.advance d).lines = st.lines := rfl
@[simp] theorem State.advance_t (st : State) (d : Nat) : (st.advance d).t = st.t + d := rfl
@[simp] theorem State.advance_shiftReg (st : State) (d : Nat) : (st.advance d).shiftReg = st.shiftReg := rfl
@[simp] theorem State.advance_outReg (st : State) (d : Nat) : (st.advance d).outReg = st.outReg := rfl
@[simp] theorem State.advance_on (st : State) (d : Nat) : (st.advance d).on = st.on := rfl
@[simp] theorem State.advance_trace (st : State) (d : Nat) : (st.advance d).trace = st.trace := rfl
@[simp] theorem State.advance_record (st : State) (d : Nat) : (st.advance d).record = st.record := rfl
@[simp] theorem State.advance_responses (st : State) (d : Nat) : (st.advance d).responses = st.responses := rfl
@[simp] theorem State.advance_agenda (st : State) (d : Nat) : (st.advance d).agenda = st.agenda := rfl
@[simp] theorem State.advance_draws (st : State) (d : Nat) : (st.advance d).draws = st.draws := rfl


/-! ### `nextDraw` -/

@[simp] theorem State.nextDraw_state (st : State) : (st.nextDraw).state = st.state := rfl
@[simp] theorem State.nextDraw_s (st : State) : (st.nextDraw).s = st.s := rfl
@[simp] theorem State.nextDraw_p (st : State) : (st.nextDraw).p = st.p := rfl
@[simp] theorem State.nextDraw_x (st : State) : (st.nextDraw).x = st.x := rfl
@[simp] theorem State.nextDraw_baseAct (st : State) : (st.nextDraw).baseAct = st.baseAct := rfl
@[simp] theorem State.nextDraw_mem (st : State) : (st.nextDraw).mem = st.mem := rfl
@[simp] theorem State.nextDraw_ctrl (st : State) : (st.nextDraw).ctrl = st.ctrl := rfl
@[simp] theorem State.nextDraw_status (st : State) : (st.nextDraw).status = st.status := rfl
@[simp] theorem State.nextDraw_base (st : State) : (st.nextDraw).base = st.base := rfl
@[simp] theorem State.nextDraw_frames (st : State) : (st.nextDraw).frames = st.frames := rfl
@[simp] theorem State.nextDraw_errCause (st : State) : (st.nextDraw).errCause = st.errCause := rfl
@[simp] theorem State.nextDraw_errKey (st : State) : (st.nextDraw).errKey = st.errKey := rfl
@[simp] theorem State.nextDraw_lines (st : State) : (st.nextDraw).lines = st.lines := rfl
@[simp] theorem State.nextDraw_t (st : State) : (st.nextDraw).t = st.t := rfl
@[simp] theorem State.nextDraw_shiftReg (st : State) : (st.nextDraw).shiftReg = st.shiftReg := rfl
@[simp] theorem State.nextDraw_outReg (st : State) : (st.nextDraw).outReg = st.outReg := rfl
@[simp] theorem State.nextDraw_on (st : State) : (st.nextDraw).on = st.on := rfl
@[simp] theorem State.nextDraw_trace (st : State) : (st.nextDraw).trace = st.trace := rfl
@[simp] theorem State.nextDraw_record (st : State) : (st.nextDraw).record = st.record := rfl
@[simp] theorem State.nextDraw_responses (st : State) : (st.nextDraw).responses = st.responses := rfl
@[simp] theorem State.nextDraw_agenda (st : State) : (st.nextDraw).agenda = st.agenda := rfl
@[simp] theorem State.nextDraw_draws (st : State) : (st.nextDraw).draws = st.draws + 1 := rfl


/-! ### `advanceDelta` -/

@[simp] theorem State.advanceDelta_state (st : State) : (st.advanceDelta).state = st.state := rfl
@[simp] theorem State.advanceDelta_s (st : State) : (st.advanceDelta).s = st.s := rfl
@[simp] theorem State.advanceDelta_p (st : State) : (st.advanceDelta).p = st.p := rfl
@[simp] theorem State.advanceDelta_x (st : State) : (st.advanceDelta).x = st.x := rfl
@[simp] theorem State.advanceDelta_baseAct (st : State) : (st.advanceDelta).baseAct = st.baseAct := rfl
@[simp] theorem State.advanceDelta_mem (st : State) : (st.advanceDelta).mem = st.mem := rfl
@[simp] theorem State.advanceDelta_ctrl (st : State) : (st.advanceDelta).ctrl = st.ctrl := rfl
@[simp] theorem State.advanceDelta_status (st : State) : (st.advanceDelta).status = st.status := rfl
@[simp] theorem State.advanceDelta_base (st : State) : (st.advanceDelta).base = st.base := rfl
@[simp] theorem State.advanceDelta_frames (st : State) : (st.advanceDelta).frames = st.frames := rfl
@[simp] theorem State.advanceDelta_errCause (st : State) : (st.advanceDelta).errCause = st.errCause := rfl
@[simp] theorem State.advanceDelta_errKey (st : State) : (st.advanceDelta).errKey = st.errKey := rfl
@[simp] theorem State.advanceDelta_lines (st : State) : (st.advanceDelta).lines = st.lines := rfl
@[simp] theorem State.advanceDelta_t (st : State) : (st.advanceDelta).t = st.t + Config.stepDuration st.draws := rfl
@[simp] theorem State.advanceDelta_shiftReg (st : State) : (st.advanceDelta).shiftReg = st.shiftReg := rfl
@[simp] theorem State.advanceDelta_outReg (st : State) : (st.advanceDelta).outReg = st.outReg := rfl
@[simp] theorem State.advanceDelta_on (st : State) : (st.advanceDelta).on = st.on := rfl
@[simp] theorem State.advanceDelta_trace (st : State) : (st.advanceDelta).trace = st.trace := rfl
@[simp] theorem State.advanceDelta_record (st : State) : (st.advanceDelta).record = st.record := rfl
@[simp] theorem State.advanceDelta_responses (st : State) : (st.advanceDelta).responses = st.responses := rfl
@[simp] theorem State.advanceDelta_agenda (st : State) : (st.advanceDelta).agenda = st.agenda := rfl
@[simp] theorem State.advanceDelta_draws (st : State) : (st.advanceDelta).draws = st.draws + 1 := rfl


/-! ### `note` -/

@[simp] theorem State.note_state (st : State) (kind : RecordKind) (i : Instr) : (st.note kind i).state = st.state := rfl
@[simp] theorem State.note_s (st : State) (kind : RecordKind) (i : Instr) : (st.note kind i).s = st.s := rfl
@[simp] theorem State.note_p (st : State) (kind : RecordKind) (i : Instr) : (st.note kind i).p = st.p := rfl
@[simp] theorem State.note_x (st : State) (kind : RecordKind) (i : Instr) : (st.note kind i).x = st.x := rfl
@[simp] theorem State.note_baseAct (st : State) (kind : RecordKind) (i : Instr) : (st.note kind i).baseAct = st.baseAct := rfl
@[simp] theorem State.note_mem (st : State) (kind : RecordKind) (i : Instr) : (st.note kind i).mem = st.mem := rfl
@[simp] theorem State.note_ctrl (st : State) (kind : RecordKind) (i : Instr) : (st.note kind i).ctrl = st.ctrl := rfl
@[simp] theorem State.note_status (st : State) (kind : RecordKind) (i : Instr) : (st.note kind i).status = st.status := rfl
@[simp] theorem State.note_base (st : State) (kind : RecordKind) (i : Instr) : (st.note kind i).base = st.base := rfl
@[simp] theorem State.note_frames (st : State) (kind : RecordKind) (i : Instr) : (st.note kind i).frames = st.frames := rfl
@[simp] theorem State.note_errCause (st : State) (kind : RecordKind) (i : Instr) : (st.note kind i).errCause = st.errCause := rfl
@[simp] theorem State.note_errKey (st : State) (kind : RecordKind) (i : Instr) : (st.note kind i).errKey = st.errKey := rfl
@[simp] theorem State.note_lines (st : State) (kind : RecordKind) (i : Instr) : (st.note kind i).lines = st.lines := rfl
@[simp] theorem State.note_t (st : State) (kind : RecordKind) (i : Instr) : (st.note kind i).t = st.t := rfl
@[simp] theorem State.note_shiftReg (st : State) (kind : RecordKind) (i : Instr) : (st.note kind i).shiftReg = st.shiftReg := rfl
@[simp] theorem State.note_outReg (st : State) (kind : RecordKind) (i : Instr) : (st.note kind i).outReg = st.outReg := rfl
@[simp] theorem State.note_on (st : State) (kind : RecordKind) (i : Instr) : (st.note kind i).on = st.on := rfl
@[simp] theorem State.note_trace (st : State) (kind : RecordKind) (i : Instr) : (st.note kind i).trace = st.trace := rfl
@[simp] theorem State.note_record (st : State) (kind : RecordKind) (i : Instr) : (st.note kind i).record = st.record ++ [⟨kind, i⟩] := rfl
@[simp] theorem State.note_responses (st : State) (kind : RecordKind) (i : Instr) : (st.note kind i).responses = st.responses := rfl
@[simp] theorem State.note_agenda (st : State) (kind : RecordKind) (i : Instr) : (st.note kind i).agenda = st.agenda := rfl
@[simp] theorem State.note_draws (st : State) (kind : RecordKind) (i : Instr) : (st.note kind i).draws = st.draws := rfl


/-! ### `respond` -/

@[simp] theorem State.respond_state (st : State) (r : Response) : (st.respond r).state = st.state := rfl
@[simp] theorem State.respond_s (st : State) (r : Response) : (st.respond r).s = st.s := rfl
@[simp] theorem State.respond_p (st : State) (r : Response) : (st.respond r).p = st.p := rfl
@[simp] theorem State.respond_x (st : State) (r : Response) : (st.respond r).x = st.x := rfl
@[simp] theorem State.respond_baseAct (st : State) (r : Response) : (st.respond r).baseAct = st.baseAct := rfl
@[simp] theorem State.respond_mem (st : State) (r : Response) : (st.respond r).mem = st.mem := rfl
@[simp] theorem State.respond_ctrl (st : State) (r : Response) : (st.respond r).ctrl = st.ctrl := rfl
@[simp] theorem State.respond_status (st : State) (r : Response) : (st.respond r).status = st.status := rfl
@[simp] theorem State.respond_base (st : State) (r : Response) : (st.respond r).base = st.base := rfl
@[simp] theorem State.respond_frames (st : State) (r : Response) : (st.respond r).frames = st.frames := rfl
@[simp] theorem State.respond_errCause (st : State) (r : Response) : (st.respond r).errCause = st.errCause := rfl
@[simp] theorem State.respond_errKey (st : State) (r : Response) : (st.respond r).errKey = st.errKey := rfl
@[simp] theorem State.respond_lines (st : State) (r : Response) : (st.respond r).lines = st.lines := rfl
@[simp] theorem State.respond_t (st : State) (r : Response) : (st.respond r).t = st.t := rfl
@[simp] theorem State.respond_shiftReg (st : State) (r : Response) : (st.respond r).shiftReg = st.shiftReg := rfl
@[simp] theorem State.respond_outReg (st : State) (r : Response) : (st.respond r).outReg = st.outReg := rfl
@[simp] theorem State.respond_on (st : State) (r : Response) : (st.respond r).on = st.on := rfl
@[simp] theorem State.respond_trace (st : State) (r : Response) : (st.respond r).trace = st.trace := rfl
@[simp] theorem State.respond_record (st : State) (r : Response) : (st.respond r).record = st.record := rfl
@[simp] theorem State.respond_responses (st : State) (r : Response) : (st.respond r).responses = st.responses ++ [r] := rfl
@[simp] theorem State.respond_agenda (st : State) (r : Response) : (st.respond r).agenda = st.agenda := rfl
@[simp] theorem State.respond_draws (st : State) (r : Response) : (st.respond r).draws = st.draws := rfl


/-! ### `acknowledge` -/

@[simp] theorem State.acknowledge_state (st : State) : (st.acknowledge).state = st.state := rfl
@[simp] theorem State.acknowledge_s (st : State) : (st.acknowledge).s = st.s := rfl
@[simp] theorem State.acknowledge_p (st : State) : (st.acknowledge).p = st.p := rfl
@[simp] theorem State.acknowledge_x (st : State) : (st.acknowledge).x = st.x := rfl
@[simp] theorem State.acknowledge_baseAct (st : State) : (st.acknowledge).baseAct = st.baseAct := rfl
@[simp] theorem State.acknowledge_mem (st : State) : (st.acknowledge).mem = st.mem := rfl
@[simp] theorem State.acknowledge_ctrl (st : State) : (st.acknowledge).ctrl = st.ctrl := rfl
@[simp] theorem State.acknowledge_status (st : State) : (st.acknowledge).status = st.status := rfl
@[simp] theorem State.acknowledge_base (st : State) : (st.acknowledge).base = st.base := rfl
@[simp] theorem State.acknowledge_frames (st : State) : (st.acknowledge).frames = st.frames := rfl
@[simp] theorem State.acknowledge_errCause (st : State) : (st.acknowledge).errCause = st.errCause := rfl
@[simp] theorem State.acknowledge_errKey (st : State) : (st.acknowledge).errKey = st.errKey := rfl
@[simp] theorem State.acknowledge_lines (st : State) : (st.acknowledge).lines = st.lines := rfl
@[simp] theorem State.acknowledge_t (st : State) : (st.acknowledge).t = st.t := rfl
@[simp] theorem State.acknowledge_shiftReg (st : State) : (st.acknowledge).shiftReg = st.shiftReg := rfl
@[simp] theorem State.acknowledge_outReg (st : State) : (st.acknowledge).outReg = st.outReg := rfl
@[simp] theorem State.acknowledge_on (st : State) : (st.acknowledge).on = st.on := rfl
@[simp] theorem State.acknowledge_trace (st : State) : (st.acknowledge).trace = st.trace := rfl
@[simp] theorem State.acknowledge_record (st : State) : (st.acknowledge).record = st.record := rfl
@[simp] theorem State.acknowledge_responses (st : State) : (st.acknowledge).responses = st.responses ++ [.written] := rfl
@[simp] theorem State.acknowledge_agenda (st : State) : (st.acknowledge).agenda = st.agenda := rfl
@[simp] theorem State.acknowledge_draws (st : State) : (st.acknowledge).draws = st.draws + 1 := rfl


/-! ### `storePixel` -/

@[simp] theorem State.storePixel_state (st : State) (idx : BitVec 10) (w : Word) : (st.storePixel idx w).state = st.state := rfl
@[simp] theorem State.storePixel_s (st : State) (idx : BitVec 10) (w : Word) : (st.storePixel idx w).s = st.s := rfl
@[simp] theorem State.storePixel_p (st : State) (idx : BitVec 10) (w : Word) : (st.storePixel idx w).p = st.p := rfl
@[simp] theorem State.storePixel_x (st : State) (idx : BitVec 10) (w : Word) : (st.storePixel idx w).x = st.x := rfl
@[simp] theorem State.storePixel_baseAct (st : State) (idx : BitVec 10) (w : Word) : (st.storePixel idx w).baseAct = st.baseAct := rfl
@[simp] theorem State.storePixel_mem (st : State) (idx : BitVec 10) (w : Word) : (st.storePixel idx w).mem = st.mem.writeWord (pixelAddress idx) w := rfl
@[simp] theorem State.storePixel_ctrl (st : State) (idx : BitVec 10) (w : Word) : (st.storePixel idx w).ctrl = st.ctrl := rfl
@[simp] theorem State.storePixel_status (st : State) (idx : BitVec 10) (w : Word) : (st.storePixel idx w).status = st.status := rfl
@[simp] theorem State.storePixel_base (st : State) (idx : BitVec 10) (w : Word) : (st.storePixel idx w).base = st.base := rfl
@[simp] theorem State.storePixel_frames (st : State) (idx : BitVec 10) (w : Word) : (st.storePixel idx w).frames = st.frames := rfl
@[simp] theorem State.storePixel_errCause (st : State) (idx : BitVec 10) (w : Word) : (st.storePixel idx w).errCause = st.errCause := rfl
@[simp] theorem State.storePixel_errKey (st : State) (idx : BitVec 10) (w : Word) : (st.storePixel idx w).errKey = st.errKey := rfl
@[simp] theorem State.storePixel_lines (st : State) (idx : BitVec 10) (w : Word) : (st.storePixel idx w).lines = st.lines := rfl
@[simp] theorem State.storePixel_t (st : State) (idx : BitVec 10) (w : Word) : (st.storePixel idx w).t = st.t := rfl
@[simp] theorem State.storePixel_shiftReg (st : State) (idx : BitVec 10) (w : Word) : (st.storePixel idx w).shiftReg = st.shiftReg := rfl
@[simp] theorem State.storePixel_outReg (st : State) (idx : BitVec 10) (w : Word) : (st.storePixel idx w).outReg = st.outReg := rfl
@[simp] theorem State.storePixel_on (st : State) (idx : BitVec 10) (w : Word) : (st.storePixel idx w).on = st.on := rfl
@[simp] theorem State.storePixel_trace (st : State) (idx : BitVec 10) (w : Word) : (st.storePixel idx w).trace = st.trace := rfl
@[simp] theorem State.storePixel_record (st : State) (idx : BitVec 10) (w : Word) : (st.storePixel idx w).record = st.record := rfl
@[simp] theorem State.storePixel_responses (st : State) (idx : BitVec 10) (w : Word) : (st.storePixel idx w).responses = st.responses := rfl
@[simp] theorem State.storePixel_agenda (st : State) (idx : BitVec 10) (w : Word) : (st.storePixel idx w).agenda = st.agenda := rfl
@[simp] theorem State.storePixel_draws (st : State) (idx : BitVec 10) (w : Word) : (st.storePixel idx w).draws = st.draws := rfl


/-! ### `pulseClk` -/

@[simp] theorem State.pulseClk_state (st : State) : (st.pulseClk).state = st.state := rfl
@[simp] theorem State.pulseClk_s (st : State) : (st.pulseClk).s = st.s := rfl
@[simp] theorem State.pulseClk_p (st : State) : (st.pulseClk).p = st.p := rfl
@[simp] theorem State.pulseClk_x (st : State) : (st.pulseClk).x = st.x := rfl
@[simp] theorem State.pulseClk_baseAct (st : State) : (st.pulseClk).baseAct = st.baseAct := rfl
@[simp] theorem State.pulseClk_mem (st : State) : (st.pulseClk).mem = st.mem := rfl
@[simp] theorem State.pulseClk_ctrl (st : State) : (st.pulseClk).ctrl = st.ctrl := rfl
@[simp] theorem State.pulseClk_status (st : State) : (st.pulseClk).status = st.status := rfl
@[simp] theorem State.pulseClk_base (st : State) : (st.pulseClk).base = st.base := rfl
@[simp] theorem State.pulseClk_frames (st : State) : (st.pulseClk).frames = st.frames := rfl
@[simp] theorem State.pulseClk_errCause (st : State) : (st.pulseClk).errCause = st.errCause := rfl
@[simp] theorem State.pulseClk_errKey (st : State) : (st.pulseClk).errKey = st.errKey := rfl
@[simp] theorem State.pulseClk_lines (st : State) : (st.pulseClk).lines = { st.lines with clk := false } := rfl
@[simp] theorem State.pulseClk_t (st : State) : (st.pulseClk).t = st.t := rfl
@[simp] theorem State.pulseClk_shiftReg (st : State) : (st.pulseClk).shiftReg = shiftIn st.shiftReg st.lines.colours := rfl
@[simp] theorem State.pulseClk_outReg (st : State) : (st.pulseClk).outReg = st.outReg := rfl
@[simp] theorem State.pulseClk_on (st : State) : (st.pulseClk).on = st.on := rfl
@[simp] theorem State.pulseClk_trace (st : State) : (st.pulseClk).trace = st.trace := rfl
@[simp] theorem State.pulseClk_record (st : State) : (st.pulseClk).record = st.record := rfl
@[simp] theorem State.pulseClk_responses (st : State) : (st.pulseClk).responses = st.responses := rfl
@[simp] theorem State.pulseClk_agenda (st : State) : (st.pulseClk).agenda = st.agenda := rfl
@[simp] theorem State.pulseClk_draws (st : State) : (st.pulseClk).draws = st.draws := rfl


/-! ### `pulseLat` -/

@[simp] theorem State.pulseLat_state (st : State) : (st.pulseLat).state = st.state := rfl
@[simp] theorem State.pulseLat_s (st : State) : (st.pulseLat).s = st.s := rfl
@[simp] theorem State.pulseLat_p (st : State) : (st.pulseLat).p = st.p := rfl
@[simp] theorem State.pulseLat_x (st : State) : (st.pulseLat).x = st.x := rfl
@[simp] theorem State.pulseLat_baseAct (st : State) : (st.pulseLat).baseAct = st.baseAct := rfl
@[simp] theorem State.pulseLat_mem (st : State) : (st.pulseLat).mem = st.mem := rfl
@[simp] theorem State.pulseLat_ctrl (st : State) : (st.pulseLat).ctrl = st.ctrl := rfl
@[simp] theorem State.pulseLat_status (st : State) : (st.pulseLat).status = st.status := rfl
@[simp] theorem State.pulseLat_base (st : State) : (st.pulseLat).base = st.base := rfl
@[simp] theorem State.pulseLat_frames (st : State) : (st.pulseLat).frames = st.frames := rfl
@[simp] theorem State.pulseLat_errCause (st : State) : (st.pulseLat).errCause = st.errCause := rfl
@[simp] theorem State.pulseLat_errKey (st : State) : (st.pulseLat).errKey = st.errKey := rfl
@[simp] theorem State.pulseLat_lines (st : State) : (st.pulseLat).lines = { st.lines with lat := false } := rfl
@[simp] theorem State.pulseLat_t (st : State) : (st.pulseLat).t = st.t := rfl
@[simp] theorem State.pulseLat_shiftReg (st : State) : (st.pulseLat).shiftReg = st.shiftReg := rfl
@[simp] theorem State.pulseLat_outReg (st : State) : (st.pulseLat).outReg = st.shiftReg := rfl
@[simp] theorem State.pulseLat_on (st : State) : (st.pulseLat).on = st.on := rfl
@[simp] theorem State.pulseLat_trace (st : State) : (st.pulseLat).trace = st.trace := rfl
@[simp] theorem State.pulseLat_record (st : State) : (st.pulseLat).record = st.record := rfl
@[simp] theorem State.pulseLat_responses (st : State) : (st.pulseLat).responses = st.responses := rfl
@[simp] theorem State.pulseLat_agenda (st : State) : (st.pulseLat).agenda = st.agenda := rfl
@[simp] theorem State.pulseLat_draws (st : State) : (st.pulseLat).draws = st.draws := rfl


/-! ### `raiseBusError` -/

@[simp] theorem State.raiseBusError_state (st : State) (code : BitVec 3) (i : Instr) : (st.raiseBusError code i).state = st.state := rfl
@[simp] theorem State.raiseBusError_s (st : State) (code : BitVec 3) (i : Instr) : (st.raiseBusError code i).s = st.s := rfl
@[simp] theorem State.raiseBusError_p (st : State) (code : BitVec 3) (i : Instr) : (st.raiseBusError code i).p = st.p := rfl
@[simp] theorem State.raiseBusError_x (st : State) (code : BitVec 3) (i : Instr) : (st.raiseBusError code i).x = st.x := rfl
@[simp] theorem State.raiseBusError_baseAct (st : State) (code : BitVec 3) (i : Instr) : (st.raiseBusError code i).baseAct = st.baseAct := rfl
@[simp] theorem State.raiseBusError_mem (st : State) (code : BitVec 3) (i : Instr) : (st.raiseBusError code i).mem = st.mem := rfl
@[simp] theorem State.raiseBusError_ctrl (st : State) (code : BitVec 3) (i : Instr) : (st.raiseBusError code i).ctrl = st.ctrl := rfl
@[simp] theorem State.raiseBusError_status (st : State) (code : BitVec 3) (i : Instr) : (st.raiseBusError code i).status = { st.status with busErr := true } := rfl
@[simp] theorem State.raiseBusError_base (st : State) (code : BitVec 3) (i : Instr) : (st.raiseBusError code i).base = st.base := rfl
@[simp] theorem State.raiseBusError_frames (st : State) (code : BitVec 3) (i : Instr) : (st.raiseBusError code i).frames = st.frames := rfl
@[simp] theorem State.raiseBusError_errCause (st : State) (code : BitVec 3) (i : Instr) : (st.raiseBusError code i).errCause = code := rfl
@[simp] theorem State.raiseBusError_errKey (st : State) (code : BitVec 3) (i : Instr) : (st.raiseBusError code i).errKey = encodeKey i := rfl
@[simp] theorem State.raiseBusError_lines (st : State) (code : BitVec 3) (i : Instr) : (st.raiseBusError code i).lines = st.lines := rfl
@[simp] theorem State.raiseBusError_t (st : State) (code : BitVec 3) (i : Instr) : (st.raiseBusError code i).t = st.t := rfl
@[simp] theorem State.raiseBusError_shiftReg (st : State) (code : BitVec 3) (i : Instr) : (st.raiseBusError code i).shiftReg = st.shiftReg := rfl
@[simp] theorem State.raiseBusError_outReg (st : State) (code : BitVec 3) (i : Instr) : (st.raiseBusError code i).outReg = st.outReg := rfl
@[simp] theorem State.raiseBusError_on (st : State) (code : BitVec 3) (i : Instr) : (st.raiseBusError code i).on = st.on := rfl
@[simp] theorem State.raiseBusError_trace (st : State) (code : BitVec 3) (i : Instr) : (st.raiseBusError code i).trace = st.trace := rfl
@[simp] theorem State.raiseBusError_record (st : State) (code : BitVec 3) (i : Instr) : (st.raiseBusError code i).record = st.record ++ [⟨.busError code, i⟩] := rfl
@[simp] theorem State.raiseBusError_responses (st : State) (code : BitVec 3) (i : Instr) : (st.raiseBusError code i).responses = st.responses ++ [errorResponse (accessOf i)] := rfl
@[simp] theorem State.raiseBusError_agenda (st : State) (code : BitVec 3) (i : Instr) : (st.raiseBusError code i).agenda = st.agenda := rfl
@[simp] theorem State.raiseBusError_draws (st : State) (code : BitVec 3) (i : Instr) : (st.raiseBusError code i).draws = st.draws + 1 := rfl


/-! ### `resetAction` -/

@[simp] theorem State.resetAction_state (st : State) : (st.resetAction).state = State.reset.state := rfl
@[simp] theorem State.resetAction_s (st : State) : (st.resetAction).s = State.reset.s := rfl
@[simp] theorem State.resetAction_p (st : State) : (st.resetAction).p = State.reset.p := rfl
@[simp] theorem State.resetAction_x (st : State) : (st.resetAction).x = State.reset.x := rfl
@[simp] theorem State.resetAction_baseAct (st : State) : (st.resetAction).baseAct = State.reset.baseAct := rfl
@[simp] theorem State.resetAction_mem (st : State) : (st.resetAction).mem = State.reset.mem := rfl
@[simp] theorem State.resetAction_ctrl (st : State) : (st.resetAction).ctrl = State.reset.ctrl := rfl
@[simp] theorem State.resetAction_status (st : State) : (st.resetAction).status = State.reset.status := rfl
@[simp] theorem State.resetAction_base (st : State) : (st.resetAction).base = State.reset.base := rfl
@[simp] theorem State.resetAction_frames (st : State) : (st.resetAction).frames = State.reset.frames := rfl
@[simp] theorem State.resetAction_errCause (st : State) : (st.resetAction).errCause = State.reset.errCause := rfl
@[simp] theorem State.resetAction_errKey (st : State) : (st.resetAction).errKey = State.reset.errKey := rfl
@[simp] theorem State.resetAction_lines (st : State) : (st.resetAction).lines = State.reset.lines := rfl
@[simp] theorem State.resetAction_t (st : State) : (st.resetAction).t = State.reset.t := rfl
@[simp] theorem State.resetAction_shiftReg (st : State) : (st.resetAction).shiftReg = st.shiftReg := rfl
@[simp] theorem State.resetAction_outReg (st : State) : (st.resetAction).outReg = st.outReg := rfl
@[simp] theorem State.resetAction_on (st : State) : (st.resetAction).on = State.reset.on := rfl
@[simp] theorem State.resetAction_trace (st : State) : (st.resetAction).trace = st.trace := rfl
@[simp] theorem State.resetAction_record (st : State) : (st.resetAction).record = State.reset.record := rfl
@[simp] theorem State.resetAction_responses (st : State) : (st.resetAction).responses = st.responses := rfl
@[simp] theorem State.resetAction_agenda (st : State) : (st.resetAction).agenda = st.agenda := rfl
@[simp] theorem State.resetAction_draws (st : State) : (st.resetAction).draws = st.draws + 1 := rfl


/-! ### `light` and `startFrame` -/

@[simp] theorem State.light_state (st : State) (d : Nat) : (st.light d).state = st.state := by
  unfold State.light; split <;> rfl
@[simp] theorem State.light_s (st : State) (d : Nat) : (st.light d).s = st.s := by
  unfold State.light; split <;> rfl
@[simp] theorem State.light_p (st : State) (d : Nat) : (st.light d).p = st.p := by
  unfold State.light; split <;> rfl
@[simp] theorem State.light_x (st : State) (d : Nat) : (st.light d).x = st.x := by
  unfold State.light; split <;> rfl
@[simp] theorem State.light_baseAct (st : State) (d : Nat) : (st.light d).baseAct = st.baseAct := by
  unfold State.light; split <;> rfl
@[simp] theorem State.light_mem (st : State) (d : Nat) : (st.light d).mem = st.mem := by
  unfold State.light; split <;> rfl
@[simp] theorem State.light_ctrl (st : State) (d : Nat) : (st.light d).ctrl = st.ctrl := by
  unfold State.light; split <;> rfl
@[simp] theorem State.light_status (st : State) (d : Nat) : (st.light d).status = st.status := by
  unfold State.light; split <;> rfl
@[simp] theorem State.light_base (st : State) (d : Nat) : (st.light d).base = st.base := by
  unfold State.light; split <;> rfl
@[simp] theorem State.light_frames (st : State) (d : Nat) : (st.light d).frames = st.frames := by
  unfold State.light; split <;> rfl
@[simp] theorem State.light_errCause (st : State) (d : Nat) : (st.light d).errCause = st.errCause := by
  unfold State.light; split <;> rfl
@[simp] theorem State.light_errKey (st : State) (d : Nat) : (st.light d).errKey = st.errKey := by
  unfold State.light; split <;> rfl
@[simp] theorem State.light_lines (st : State) (d : Nat) : (st.light d).lines = st.lines := by
  unfold State.light; split <;> rfl
@[simp] theorem State.light_t (st : State) (d : Nat) : (st.light d).t = st.t := by
  unfold State.light; split <;> rfl
@[simp] theorem State.light_shiftReg (st : State) (d : Nat) : (st.light d).shiftReg = st.shiftReg := by
  unfold State.light; split <;> rfl
@[simp] theorem State.light_outReg (st : State) (d : Nat) : (st.light d).outReg = st.outReg := by
  unfold State.light; split <;> rfl
@[simp] theorem State.light_trace (st : State) (d : Nat) : (st.light d).trace = st.trace := by
  unfold State.light; split <;> rfl
@[simp] theorem State.light_record (st : State) (d : Nat) : (st.light d).record = st.record := by
  unfold State.light; split <;> rfl
@[simp] theorem State.light_responses (st : State) (d : Nat) : (st.light d).responses = st.responses := by
  unfold State.light; split <;> rfl
@[simp] theorem State.light_agenda (st : State) (d : Nat) : (st.light d).agenda = st.agenda := by
  unfold State.light; split <;> rfl
@[simp] theorem State.light_draws (st : State) (d : Nat) : (st.light d).draws = st.draws := by
  unfold State.light; split <;> rfl
@[simp] theorem State.startFrame_state (st : State) : st.startFrame.state = .row := rfl
@[simp] theorem State.startFrame_s (st : State) : st.startFrame.s = 0#4 := rfl
@[simp] theorem State.startFrame_p (st : State) : st.startFrame.p = 0#3 := rfl
@[simp] theorem State.startFrame_x (st : State) : st.startFrame.x = 0#5 := rfl
@[simp] theorem State.startFrame_baseAct (st : State) : st.startFrame.baseAct = st.base := rfl
@[simp] theorem State.startFrame_mem (st : State) : st.startFrame.mem = st.mem := rfl
@[simp] theorem State.startFrame_ctrl (st : State) : st.startFrame.ctrl = st.ctrl := rfl
@[simp] theorem State.startFrame_status (st : State) : st.startFrame.status = st.status := rfl
@[simp] theorem State.startFrame_base (st : State) : st.startFrame.base = st.base := rfl
@[simp] theorem State.startFrame_frames (st : State) : st.startFrame.frames = st.frames := rfl
@[simp] theorem State.startFrame_errCause (st : State) : st.startFrame.errCause = st.errCause := rfl
@[simp] theorem State.startFrame_errKey (st : State) : st.startFrame.errKey = st.errKey := rfl
@[simp] theorem State.startFrame_lines (st : State) : st.startFrame.lines = st.lines := rfl
@[simp] theorem State.startFrame_t (st : State) : st.startFrame.t = st.t := rfl
@[simp] theorem State.startFrame_shiftReg (st : State) : st.startFrame.shiftReg = st.shiftReg := rfl
@[simp] theorem State.startFrame_outReg (st : State) : st.startFrame.outReg = st.outReg := rfl
@[simp] theorem State.startFrame_on (st : State) : st.startFrame.on = st.on := rfl
@[simp] theorem State.startFrame_trace (st : State) : st.startFrame.trace = st.trace ++ [⟨encodeEvent (.frameStart st.base), st.t⟩] := rfl
@[simp] theorem State.startFrame_record (st : State) : st.startFrame.record = st.record := rfl
@[simp] theorem State.startFrame_responses (st : State) : st.startFrame.responses = st.responses := rfl
@[simp] theorem State.startFrame_agenda (st : State) : st.startFrame.agenda = st.agenda := rfl
@[simp] theorem State.startFrame_draws (st : State) : st.startFrame.draws = st.draws := rfl

end Sys2Proof.Machine
end

