-- ==== Sys2Proof/Laws/Ops.lean ====
section
/-!
SUPPORT. What each shared operation can do, said once.
-/
namespace Sys2Proof.Machine

/-- A micro-operation completes exactly when it is the engine's next step. -/
theorem engineStep_next (i : Instr) (st n t : State) :
    engineStep i st n = .next t ↔ st.engineNext = some i ∧ t = n := by
  unfold engineStep
  split
  · rename_i h
    simp only [h, Host.Outcome.next.injEq, true_and]
    exact ⟨Eq.symm, Eq.symm⟩
  · rename_i h
    simp [h]

/-- Otherwise it is stuck. -/
theorem engineStep_stuck (i : Instr) (st n : State) (h : st.engineNext ≠ some i) :
    engineStep i st n = .fault .stepNotEnabled := if_neg h

/-- A pixel read of a written word only answers (R150, R138). -/
theorem readPixel_written (i : Instr) (idx : BitVec 10) (st : State) (w : Word) (h : st.fb idx = some w) :
    readPixel i idx st = st.respond (.read w) := by
  simp [readPixel, h]

/-- A pixel read of an unwritten word is recorded and answers the present free value (R297, U1). -/
theorem readPixel_unwritten (i : Instr) (idx : BitVec 10) (st : State) (h : st.fb idx = none) :
    readPixel i idx st =
      { st with record := st.record ++ [⟨.uninitFbRead, i⟩],
                responses := st.responses ++ [.read (Config.unwrittenWord st.draws idx)] } := by
  simp [readPixel, h, State.pixel, State.note, State.respond]

/-- A pixel write changes the framebuffer, `SCAN_WR`, the record, the responses and the draw (R151, R298). -/
theorem writePixel_eq (i : Instr) (idx : BitVec 10) (w : Word) (st : State) :
    writePixel i idx w st =
      { st with mem := st.mem.writeWord (pixelAddress idx) w,
                status := { st.status with scanWr := st.status.scanWr || st.busy },
                record := if st.busy then st.record ++ [⟨.scanWr, i⟩] else st.record,
                responses := st.responses ++ [.written],
                draws := st.draws + 1 } := by
  unfold writePixel
  cases h : st.busy <;> simp [State.acknowledge, State.nextDraw, State.respond, State.note, State.storePixel]

/-- The next pixel written reads back. -/
theorem writePixel_fb (i : Instr) (idx : BitVec 10) (w : Word) (st : State) (j : BitVec 10) :
    (writePixel i idx w st).fb j = if j = idx then some w else st.fb j := by
  rw [writePixel_eq]
  by_cases h : j = idx
  · subst h; rw [if_pos rfl]; exact Memory.readWord_writeWord_same _ _ _
  · rw [if_neg h]; exact State.fb_storePixel_other st idx j w h

/-- A bus error changes the error registers, `BUSERR`, the record, the responses and the draw (R291). -/
theorem raiseBusError_eq (st : State) (code : BitVec 3) (i : Instr) :
    st.raiseBusError code i =
      { st with status := { st.status with busErr := true }, errCause := code, errKey := encodeKey i,
                record := st.record ++ [⟨.busError code, i⟩],
                responses := st.responses ++ [errorResponse (accessOf i)],
                draws := st.draws + 1 } := rfl

/-- `GO` in `IDLE` starts a frame (R251, R211). -/
theorem go_idle (st : State) (i : Instr) (h : st.state = .idle) : st.go i = st.startFrame := if_pos h

/-- `GO` inside a frame is flagged and recorded (R351, R298). -/
theorem go_busy (st : State) (i : Instr) (h : st.state ≠ .idle) :
    st.go i = { st with status := { st.status with goIgn := true }, record := st.record ++ [⟨.goIgn, i⟩] } := if_neg h

/-- The shift register after a clock pulse (R321). -/
theorem shiftIn_get (reg : Vector Colours 32) (c : Colours) (k : Fin 32) :
    (shiftIn reg c)[k] = if h : k.val + 1 < 32 then reg[k.val + 1] else c := by
  simp [shiftIn]

/-- The on-time after a hold (R322). -/
theorem light_on (st : State) (d : Nat) (r c : Fin 32) :
    (st.light d).on[r][c] =
      if st.lines.en then lightPixel st.lines.address.toNat d st.outReg[c] r.val st.on[r][c] else st.on[r][c] := by
  unfold State.light
  split <;> simp [*]

end Sys2Proof.Machine
end

