-- ==== Sys2Proof/Laws/Exec.lean ====
section
/-!
SUPPORT. What running an instruction can do, said once: an event is the engine's next step or a frame start, and a host
transaction is one of six shapes.
-/
namespace Sys2Proof.Machine

/-- An event that completes is the frame start of an idle block or the engine's next step (R23, R97, R211). -/
theorem exec_event_cases {i : Instr} {s t : State} (he : i.isEvent = true) (h : exec i s = .next t) :
    (i = .frameStart s.base ∧ s.state = .idle ∧ t = s.startFrame.nextDraw) ∨
    (i = .addr s.s ∧ s.state = .row ∧ t = s.rowStep) ∨
    (i = .color s.s s.p s.x s.columnColours.bits ∧ s.state = .col ∧ t = s.colStep) ∨
    (i = .clk s.s s.p s.x ∧ s.state = .clk ∧ t = s.clkStep) ∨
    (i = .lat s.s s.p ∧ s.state = .lat ∧ t = s.latStep) ∨
    (i = .enOn s.s s.p ∧ s.state = .enon ∧ t = s.enonStep) ∨
    (i = .hold (weight s.baseAct s.p) ∧ s.state = .hold ∧ t = s.holdStep) ∨
    (i = .enOff s.s s.p ∧ s.state = .enoff ∧ t = s.enoffStep) ∨
    (i = .frameEnd ((s.frames + 1#32).extractLsb' 0 28) ∧ s.state = .fend ∧ t = s.fendStep) := by
  cases i <;> simp only [Instr.isEvent, Bool.false_eq_true] at he
  case frameStart b =>
    simp only [exec, execFrameStart] at h
    split at h
    · rename_i hc
      obtain ⟨hs, rfl⟩ := hc
      exact .inl ⟨rfl, hs, by simpa using h.symm⟩
    · simp at h
  all_goals
    simp only [exec, execAddr, execColor, execClk, execLat, execEnOn, execHold, execEnOff, execFrameEnd] at h
    rw [engineStep_next] at h
    obtain ⟨hn, rfl⟩ := h
    unfold State.engineNext at hn
    cases hs : s.state <;> simp [hs] at hn ⊢
    try simp [hn]

/-- Which instructions are refused transactions, by their cause (R95, R290). -/
def busErrorCause : Instr → Option (BitVec 3)
  | .busErrSizeNarrow _ _ _ | .busErrSizeReserved _ _ => some 1#3
  | .busErrAlignOdd _ _ | .busErrAlignEven _ _ => some 2#3
  | .busErrUnmapped _ _ => some 3#3
  | .busErrRoLut _ _ | .busErrRoFrames _ | .busErrRoScanpos _ | .busErrRoLines _ | .busErrRoErrcause _
  | .busErrRoErraddr _ => some 4#3
  | _ => none

/-- `CTRL_WR` after its enables are stored: no `GO`, a frame start, or an ignored `GO` (R251). -/
theorem execCtrlWr_eq (w : Word) (s : State) :
    execCtrlWr w s = .next ((if w.getLsbD 0 then
        if s.state = .idle then ({ s with ctrl := ⟨w.getLsbD 1, w.getLsbD 2⟩ } : State).startFrame
        else { s with ctrl := ⟨w.getLsbD 1, w.getLsbD 2⟩, status := { s.status with goIgn := true },
                      record := s.record ++ [⟨.goIgn, .ctrlWr w⟩] }
      else { s with ctrl := ⟨w.getLsbD 1, w.getLsbD 2⟩ }).acknowledge) := by
  simp only [execCtrlWr, State.go, State.note]

/-- A host transaction that completes is a pixel read, a pixel write, a register or table read, a refused transaction,
or one of the three register writes. -/
theorem exec_host_cases {i : Instr} {s t : State} (he : i.isEvent = false) (h : exec i s = .next t) :
    (∃ idx, (i = .fbRd idx ∨ i = .fbgRd idx) ∧ t = readPixel i idx s) ∨
    (∃ idx w v, (i = .fbWr idx w ∨ i = .fbgWr idx w) ∧ t = writePixel i idx v s) ∨
    (accessOf i = .read ∧ busErrorCause i = none ∧ ∃ r, t = s.respond (.read r)) ∨
    (∃ c, busErrorCause i = some c ∧ t = s.raiseBusError c i) ∨
    (∃ w, i = .statusWr w ∧ t = { s with status := s.status.clear w }.acknowledge) ∨
    (∃ w, i = .baseWr w ∧ t = { s with base := baseOfData w }.acknowledge) ∨
    ∃ w, i = .ctrlWr w ∧ execCtrlWr w s = .next t := by
  cases i <;> simp only [Instr.isEvent, Bool.true_eq_false] at he
  case ctrlWr w => exact .inr (.inr (.inr (.inr (.inr (.inr ⟨w, rfl, h⟩)))))
  all_goals
    simp only [exec, execFbRd, execFbWr, execLutRd, execFbgRd, execFbgWr, execCtrlRd, execStatusRd, execStatusWr,
      execBaseRd, execBaseWr, execFramesRd, execScanposRd, execLinesRd, execErrcauseRd, execErraddrRd,
      execBusErrSizeNarrow, execBusErrSizeReserved, execBusErrAlignOdd, execBusErrAlignEven, execBusErrRoLut,
      execBusErrRoFrames, execBusErrRoScanpos, execBusErrRoLines, execBusErrRoErrcause, execBusErrRoErraddr,
      execBusErrUnmapped] at h
    injection h with h
    subst h
    first
    | exact .inl ⟨_, .inl rfl, rfl⟩
    | exact .inl ⟨_, .inr rfl, rfl⟩
    | exact .inr (.inl ⟨_, _, _, .inl rfl, rfl⟩)
    | exact .inr (.inl ⟨_, _, _, .inr rfl, rfl⟩)
    | exact .inr (.inr (.inl ⟨rfl, rfl, _, rfl⟩))
    | exact .inr (.inr (.inr (.inl ⟨_, rfl, rfl⟩)))
    | exact .inr (.inr (.inr (.inr (.inl ⟨_, rfl, rfl⟩))))
    | exact .inr (.inr (.inr (.inr (.inr (.inl ⟨_, rfl, rfl⟩)))))

/-- A pixel read changes at most the record and the responses. -/
theorem readPixel_frame (i : Instr) (idx : BitVec 10) (s : State) :
    readPixel i idx s =
      { s with record := (readPixel i idx s).record,
               responses := (readPixel i idx s).responses } := by
  cases h : s.fb idx with
  | none => rw [readPixel_unwritten _ _ _ h]
  | some w => rw [readPixel_written _ _ _ _ h]; rfl

/-- In the machine's every position but `IDLE` the engine's next step is the one that position names, and it completes. -/
theorem exec_engineNext {s : State} {i : Instr} (h : s.engineNext = some i) :
    ∃ t, exec i s = .next t := by
  have run : ∀ n : State, engineStep i s n = .next n := fun n => if_pos h
  have hi := h
  unfold State.engineNext at hi
  cases hs : s.state <;> simp only [hs, Option.some.injEq, reduceCtorEq] at hi <;> subst hi <;> exact ⟨_, run _⟩

end Sys2Proof.Machine
end

