-- ==== Sys2Proof/Laws/PerInstr.lean ====
section
/-!
SUPPORT. Per instruction: the word the encoder gives lies in the instruction's row of spec/opcode_table.json, that is,
`word & mask = match` with the mask and match the table prints for it.
-/
namespace Sys2Proof.Laws.RowMatch

/-- The mask and match of the instruction's row, copied from spec/opcode_table.json (a key row read as 32 bits). -/
def tableRow : Instr → Word × Word
  | .fbRd _ => (0x0001F003#32, 0x00010000#32)
  | .fbWr _ _ => (0x0001F003#32, 0x00014000#32)
  | .lutRd _ => (0x0001FC03#32, 0x00011000#32)
  | .fbgRd _ => (0x0001F003#32, 0x00013000#32)
  | .fbgWr _ _ => (0x0001F003#32, 0x00017000#32)
  | .ctrlRd => (0x0001FFFF#32, 0x00012000#32)
  | .ctrlWr _ => (0x0001FFFF#32, 0x00016000#32)
  | .statusRd => (0x0001FFFF#32, 0x00012004#32)
  | .statusWr _ => (0x0001FFFF#32, 0x00016004#32)
  | .baseRd => (0x0001FFFF#32, 0x00012008#32)
  | .baseWr _ => (0x0001FFFF#32, 0x00016008#32)
  | .framesRd => (0x0001FFFF#32, 0x0001200C#32)
  | .scanposRd => (0x0001FFFF#32, 0x00012010#32)
  | .linesRd => (0x0001FFFF#32, 0x00012014#32)
  | .errcauseRd => (0x0001FFFF#32, 0x00012018#32)
  | .erraddrRd => (0x0001FFFF#32, 0x0001201C#32)
  | .busErrSizeNarrow _ _ _ => (0x00010000#32, 0x00000000#32)
  | .busErrSizeReserved _ _ => (0x00018000#32, 0x00018000#32)
  | .busErrAlignOdd _ _ => (0x00018001#32, 0x00010001#32)
  | .busErrAlignEven _ _ => (0x00018002#32, 0x00010002#32)
  | .busErrRoLut _ _ => (0x0001FC03#32, 0x00015000#32)
  | .busErrRoFrames _ => (0x0001FFFF#32, 0x0001600C#32)
  | .busErrRoScanpos _ => (0x0001FFFF#32, 0x00016010#32)
  | .busErrRoLines _ => (0x0001FFFF#32, 0x00016014#32)
  | .busErrRoErrcause _ => (0x0001FFFF#32, 0x00016018#32)
  | .busErrRoErraddr _ => (0x0001FFFF#32, 0x0001601C#32)
  | .busErrUnmapped _ _ => (0x00000000#32, 0x00000000#32)
  | .frameStart _ => (0xFFFF0000#32, 0x10000000#32)
  | .addr _ => (0xFFFFFFF0#32, 0x20000000#32)
  | .color _ _ _ _ => (0xFF08E0C0#32, 0x30000000#32)
  | .clk _ _ _ => (0xFF08E0FF#32, 0x40000000#32)
  | .lat _ _ => (0xFF08FFFF#32, 0x50000000#32)
  | .enOn _ _ => (0xFF08FFFF#32, 0x60000000#32)
  | .hold _ => (0xFF000000#32, 0x70000000#32)
  | .enOff _ _ => (0xFF08FFFF#32, 0x80000000#32)
  | .frameEnd _ => (0xF0000000#32, 0x90000000#32)

/-- A well-formed instruction's word lies in its row. -/
def Statement (i : Instr) : Prop := i.wellFormed = true → encodeWord i &&& (tableRow i).1 = (tableRow i).2

theorem fbRd (idx : BitVec 10) : Statement (.fbRd idx) := by
  intro _
  apply BitVec.eq_of_getLsbD_eq
  intro k hk
  simp only [tableRow, encodeWord, Instr.isEvent, encodeKey, mkKey, windowOffset, BitVec.getLsbD_and,
    BitVec.getLsbD_setWidth, Bool.false_eq_true, if_false]
  repeat rw [BitVec.getLsbD_append]
  interval_cases k <;> simp

theorem fbWr (idx : BitVec 10) (wdata : Word) : Statement (.fbWr idx wdata) := by
  intro _
  apply BitVec.eq_of_getLsbD_eq
  intro k hk
  simp only [tableRow, encodeWord, Instr.isEvent, encodeKey, mkKey, windowOffset, BitVec.getLsbD_and,
    BitVec.getLsbD_setWidth, Bool.false_eq_true, if_false]
  repeat rw [BitVec.getLsbD_append]
  interval_cases k <;> simp

theorem lutRd (idx : BitVec 8) : Statement (.lutRd idx) := by
  intro _
  apply BitVec.eq_of_getLsbD_eq
  intro k hk
  simp only [tableRow, encodeWord, Instr.isEvent, encodeKey, mkKey, lutOffset, BitVec.getLsbD_and,
    BitVec.getLsbD_setWidth, Bool.false_eq_true, if_false]
  repeat rw [BitVec.getLsbD_append]
  interval_cases k <;> simp

theorem fbgRd (idx : BitVec 10) : Statement (.fbgRd idx) := by
  intro _
  apply BitVec.eq_of_getLsbD_eq
  intro k hk
  simp only [tableRow, encodeWord, Instr.isEvent, encodeKey, mkKey, windowOffset, BitVec.getLsbD_and,
    BitVec.getLsbD_setWidth, Bool.false_eq_true, if_false]
  repeat rw [BitVec.getLsbD_append]
  interval_cases k <;> simp

theorem fbgWr (idx : BitVec 10) (wdata : Word) : Statement (.fbgWr idx wdata) := by
  intro _
  apply BitVec.eq_of_getLsbD_eq
  intro k hk
  simp only [tableRow, encodeWord, Instr.isEvent, encodeKey, mkKey, windowOffset, BitVec.getLsbD_and,
    BitVec.getLsbD_setWidth, Bool.false_eq_true, if_false]
  repeat rw [BitVec.getLsbD_append]
  interval_cases k <;> simp

theorem ctrlRd : Statement (.ctrlRd) := by
  intro _
  simp only [tableRow, encodeWord, Instr.isEvent, encodeKey, Bool.false_eq_true, if_false]
  decide

theorem ctrlWr (wdata : Word) : Statement (.ctrlWr wdata) := by
  intro _
  simp only [tableRow, encodeWord, Instr.isEvent, encodeKey, Bool.false_eq_true, if_false]
  decide

theorem statusRd : Statement (.statusRd) := by
  intro _
  simp only [tableRow, encodeWord, Instr.isEvent, encodeKey, Bool.false_eq_true, if_false]
  decide

theorem statusWr (wdata : Word) : Statement (.statusWr wdata) := by
  intro _
  simp only [tableRow, encodeWord, Instr.isEvent, encodeKey, Bool.false_eq_true, if_false]
  decide

theorem baseRd : Statement (.baseRd) := by
  intro _
  simp only [tableRow, encodeWord, Instr.isEvent, encodeKey, Bool.false_eq_true, if_false]
  decide

theorem baseWr (wdata : Word) : Statement (.baseWr wdata) := by
  intro _
  simp only [tableRow, encodeWord, Instr.isEvent, encodeKey, Bool.false_eq_true, if_false]
  decide

theorem framesRd : Statement (.framesRd) := by
  intro _
  simp only [tableRow, encodeWord, Instr.isEvent, encodeKey, Bool.false_eq_true, if_false]
  decide

theorem scanposRd : Statement (.scanposRd) := by
  intro _
  simp only [tableRow, encodeWord, Instr.isEvent, encodeKey, Bool.false_eq_true, if_false]
  decide

theorem linesRd : Statement (.linesRd) := by
  intro _
  simp only [tableRow, encodeWord, Instr.isEvent, encodeKey, Bool.false_eq_true, if_false]
  decide

theorem errcauseRd : Statement (.errcauseRd) := by
  intro _
  simp only [tableRow, encodeWord, Instr.isEvent, encodeKey, Bool.false_eq_true, if_false]
  decide

theorem erraddrRd : Statement (.erraddrRd) := by
  intro _
  simp only [tableRow, encodeWord, Instr.isEvent, encodeKey, Bool.false_eq_true, if_false]
  decide

theorem busErrSizeNarrow (half : Bool) (off : Offset) (acc : Access) : Statement (.busErrSizeNarrow half off acc) := by
  intro _
  apply BitVec.eq_of_getLsbD_eq
  intro k hk
  simp only [tableRow, encodeWord, Instr.isEvent, encodeKey, mkKey, BitVec.getLsbD_and,
    BitVec.getLsbD_setWidth, Bool.false_eq_true, if_false]
  repeat rw [BitVec.getLsbD_append]
  interval_cases k <;> simp

theorem busErrSizeReserved (off : Offset) (acc : Access) : Statement (.busErrSizeReserved off acc) := by
  intro _
  apply BitVec.eq_of_getLsbD_eq
  intro k hk
  simp only [tableRow, encodeWord, Instr.isEvent, encodeKey, mkKey, BitVec.getLsbD_and,
    BitVec.getLsbD_setWidth, Bool.false_eq_true, if_false]
  repeat rw [BitVec.getLsbD_append]
  interval_cases k <;> simp

theorem busErrAlignOdd (off : Offset) (acc : Access) : Statement (.busErrAlignOdd off acc) := by
  intro h
  simp only [Instr.wellFormed] at h
  apply BitVec.eq_of_getLsbD_eq
  intro k hk
  simp only [tableRow, encodeWord, Instr.isEvent, encodeKey, mkKey, BitVec.getLsbD_and,
    BitVec.getLsbD_setWidth, Bool.false_eq_true, if_false]
  repeat rw [BitVec.getLsbD_append]
  interval_cases k <;> simp_all

theorem busErrAlignEven (off : Offset) (acc : Access) : Statement (.busErrAlignEven off acc) := by
  intro h
  simp only [Instr.wellFormed] at h
  apply BitVec.eq_of_getLsbD_eq
  intro k hk
  simp only [tableRow, encodeWord, Instr.isEvent, encodeKey, mkKey, BitVec.getLsbD_and,
    BitVec.getLsbD_setWidth, Bool.false_eq_true, if_false]
  repeat rw [BitVec.getLsbD_append]
  interval_cases k <;> simp_all

theorem busErrRoLut (idx : BitVec 8) (wdata : Word) : Statement (.busErrRoLut idx wdata) := by
  intro _
  apply BitVec.eq_of_getLsbD_eq
  intro k hk
  simp only [tableRow, encodeWord, Instr.isEvent, encodeKey, mkKey, lutOffset, BitVec.getLsbD_and,
    BitVec.getLsbD_setWidth, Bool.false_eq_true, if_false]
  repeat rw [BitVec.getLsbD_append]
  interval_cases k <;> simp

theorem busErrRoFrames (wdata : Word) : Statement (.busErrRoFrames wdata) := by
  intro _
  simp only [tableRow, encodeWord, Instr.isEvent, encodeKey, Bool.false_eq_true, if_false]
  decide

theorem busErrRoScanpos (wdata : Word) : Statement (.busErrRoScanpos wdata) := by
  intro _
  simp only [tableRow, encodeWord, Instr.isEvent, encodeKey, Bool.false_eq_true, if_false]
  decide

theorem busErrRoLines (wdata : Word) : Statement (.busErrRoLines wdata) := by
  intro _
  simp only [tableRow, encodeWord, Instr.isEvent, encodeKey, Bool.false_eq_true, if_false]
  decide

theorem busErrRoErrcause (wdata : Word) : Statement (.busErrRoErrcause wdata) := by
  intro _
  simp only [tableRow, encodeWord, Instr.isEvent, encodeKey, Bool.false_eq_true, if_false]
  decide

theorem busErrRoErraddr (wdata : Word) : Statement (.busErrRoErraddr wdata) := by
  intro _
  simp only [tableRow, encodeWord, Instr.isEvent, encodeKey, Bool.false_eq_true, if_false]
  decide

theorem busErrUnmapped (off : Offset) (acc : Access) : Statement (.busErrUnmapped off acc) := by
  intro _; simp [tableRow]

theorem frameStart (baseu : BitVec 16) : Statement (.frameStart baseu) := by
  intro _
  apply BitVec.eq_of_getLsbD_eq
  intro k hk
  simp only [tableRow, encodeWord, Instr.isEvent, if_true, encodeEvent, BitVec.getLsbD_and]
  repeat rw [BitVec.getLsbD_append]
  interval_cases k <;> simp

theorem addr (row : BitVec 4) : Statement (.addr row) := by
  intro _
  apply BitVec.eq_of_getLsbD_eq
  intro k hk
  simp only [tableRow, encodeWord, Instr.isEvent, if_true, encodeEvent, BitVec.getLsbD_and]
  repeat rw [BitVec.getLsbD_append]
  interval_cases k <;> simp

theorem color (row : BitVec 4) (plane : BitVec 3) (col : BitVec 5) (lines6 : BitVec 6) : Statement (.color row plane col lines6) := by
  intro _
  apply BitVec.eq_of_getLsbD_eq
  intro k hk
  simp only [tableRow, encodeWord, Instr.isEvent, if_true, encodeEvent, scanEvent, BitVec.getLsbD_and]
  repeat rw [BitVec.getLsbD_append]
  interval_cases k <;> simp

theorem clk (row : BitVec 4) (plane : BitVec 3) (col : BitVec 5) : Statement (.clk row plane col) := by
  intro _
  apply BitVec.eq_of_getLsbD_eq
  intro k hk
  simp only [tableRow, encodeWord, Instr.isEvent, if_true, encodeEvent, scanEvent, BitVec.getLsbD_and]
  repeat rw [BitVec.getLsbD_append]
  interval_cases k <;> simp

theorem lat (row : BitVec 4) (plane : BitVec 3) : Statement (.lat row plane) := by
  intro _
  apply BitVec.eq_of_getLsbD_eq
  intro k hk
  simp only [tableRow, encodeWord, Instr.isEvent, if_true, encodeEvent, scanEvent, BitVec.getLsbD_and]
  repeat rw [BitVec.getLsbD_append]
  interval_cases k <;> simp

theorem enOn (row : BitVec 4) (plane : BitVec 3) : Statement (.enOn row plane) := by
  intro _
  apply BitVec.eq_of_getLsbD_eq
  intro k hk
  simp only [tableRow, encodeWord, Instr.isEvent, if_true, encodeEvent, scanEvent, BitVec.getLsbD_and]
  repeat rw [BitVec.getLsbD_append]
  interval_cases k <;> simp

theorem hold (dur : BitVec 24) : Statement (.hold dur) := by
  intro _
  apply BitVec.eq_of_getLsbD_eq
  intro k hk
  simp only [tableRow, encodeWord, Instr.isEvent, if_true, encodeEvent, BitVec.getLsbD_and]
  repeat rw [BitVec.getLsbD_append]
  interval_cases k <;> simp

theorem enOff (row : BitVec 4) (plane : BitVec 3) : Statement (.enOff row plane) := by
  intro _
  apply BitVec.eq_of_getLsbD_eq
  intro k hk
  simp only [tableRow, encodeWord, Instr.isEvent, if_true, encodeEvent, scanEvent, BitVec.getLsbD_and]
  repeat rw [BitVec.getLsbD_append]
  interval_cases k <;> simp

theorem frameEnd (count : BitVec 28) : Statement (.frameEnd count) := by
  intro _
  apply BitVec.eq_of_getLsbD_eq
  intro k hk
  simp only [tableRow, encodeWord, Instr.isEvent, if_true, encodeEvent, BitVec.getLsbD_and]
  repeat rw [BitVec.getLsbD_append]
  interval_cases k <;> simp

end Sys2Proof.Laws.RowMatch
end

