-- ==== Sys2Proof/Laws/Step.lean ====
section
/-!
SUPPORT. What a step can do, said once.
-/
namespace Sys2Proof.Machine

/-- A step that answers a next state ran the fetched instruction, reset, or did nothing in a quiet `IDLE`. -/
theorem step_cases {s t : State} (h : step s = .next t) :
    (∃ i s', s.fetch = .run i s' ∧ exec i s' = .next t) ∨ (∃ s', s.fetch = .reset s' ∧ t = s'.resetAction) ∨
      s.fetch = .quiet t := by
  unfold step at h
  split at h
  · rename_i i s' hf; exact .inl ⟨i, s', hf, h⟩
  · rename_i s' hf; exact .inr (.inl ⟨s', hf, by simpa using h.symm⟩)
  · rename_i s' hf; exact .inr (.inr (by simpa [hf] using h))
  · simp at h

/-- What the fetch can find, and in which state: only the agenda has changed. -/
theorem fetch_cases (s : State) :
    (∃ i a, s.fetch = .run i { s with agenda := a }) ∨ (∃ a, s.fetch = .reset { s with agenda := a }) ∨
      (∃ a, s.fetch = .quiet { s with agenda := a } ∧ s.state = .idle) ∨ ∃ w, s.fetch = .reserved w := by
  have engine : ∀ st : State, (∃ i, st.fetchEngine = .run i st) ∨ (st.fetchEngine = .quiet st ∧ st.state = .idle) := by
    intro st
    unfold State.fetchEngine State.engineNext
    cases st.state <;> simp
  unfold State.fetch
  split
  · rcases engine s with ⟨i, hi⟩ | ⟨hq, hs⟩
    · exact .inl ⟨i, s.agenda, hi⟩
    · exact .inr (.inr (.inl ⟨s.agenda, hq, hs⟩))
  · rename_i turn rest _
    cases turn with
    | host key wdata => exact .inl ⟨_, rest, rfl⟩
    | event word =>
      cases hd : decodeEvent word with
      | ok i => exact .inl ⟨i, rest, by simp [hd]⟩
      | reject e => exact .inr (.inr (.inr ⟨word, by simp [hd]⟩))
    | engine =>
      rcases engine { s with agenda := rest } with ⟨i, hi⟩ | ⟨hq, hs⟩
      · exact .inl ⟨i, rest, hi⟩
      · exact .inr (.inr (.inl ⟨rest, hq, hs⟩))
    | reset => exact .inr (.inl ⟨rest, rfl⟩)

end Sys2Proof.Machine
end

