-- ==== Sys2Proof/Machine/HostProcedures.lean ====
section
/-!
DEFINITION. The host's transaction lines and the source's reference procedures (R104, R105, R153-R161), as turns for the
agenda. They are host software outside the block (R5); what depends on a response (`poll`, the loop) is given by its
condition only (log entry 20).
-/
namespace Sys2Proof.Machine

/-- A host transaction line (R104): `rd`, `wr`, and the byte and halfword spellings. -/
inductive HostLine where
  | rd (off : Offset)
  | wr (off : Offset) (wdata : Word)
  | rdByte (off : Offset)
  | rdHalf (off : Offset)
  | wrByte (off : Offset) (wdata : Word)
  | wrHalf (off : Offset) (wdata : Word)
  deriving DecidableEq, Repr

/-- The encoding of a line: its key and, for a write, its data word (R104). -/
def assemble : HostLine → Turn
  | .rd off => .host (mkKey 0b10#2 false off) 0#32
  | .wr off wdata => .host (mkKey 0b10#2 true off) wdata
  | .rdByte off => .host (mkKey 0b00#2 false off) 0#32
  | .rdHalf off => .host (mkKey 0b01#2 false off) 0#32
  | .wrByte off wdata => .host (mkKey 0b00#2 true off) wdata
  | .wrHalf off wdata => .host (mkKey 0b01#2 true off) wdata

/-- `wr FB + 4*i, v` (R105). -/
def lineFbWrite (idx : BitVec 10) (v : Word) : HostLine := .wr (windowOffset 0b00#2 idx) v
/-- `pix X, Y, V` (R105). -/
def linePix (x y : BitVec 5) (v : Word) : HostLine := lineFbWrite (pixelIndex y x) v
/-- `pixg X, Y, V` (R105). -/
def linePixg (x y : BitVec 5) (v : Word) : HostLine := .wr (windowOffset 0b11#2 (pixelIndex y x)) v
/-- `lut I` (R105). -/
def lineLut (idx : BitVec 8) : HostLine := .rd (lutOffset idx)
/-- `go IE` (R105); `go` is `go 0` and disables both interrupts. -/
def lineGo (ie : BitVec 2) : HostLine := .wr 0x2000#14 (0#29 ++ ie ++ 1#1)
/-- `setbase N` (R105). -/
def lineSetbase (n : Word) : HostLine := .wr 0x2008#14 n
/-- `ackframe` (R105). -/
def lineAckframe : HostLine := .wr 0x2004#14 0x2#32
/-- `ack` (R105). -/
def lineAck : HostLine := .wr 0x2004#14 0x1E#32

/-- The condition on which `poll OFF, MASK, VAL` ends, on the response to its `rd OFF` (R105). DESIGN CHOICE: an error
response never ends it, though R291 gives a refused read `rdata` 0, which `VAL = 0` would match (log entry 25). -/
def pollEnds (mask val : Word) : Response → Bool
  | .read rdata => rdata &&& mask == val
  | .written | .readError _ | .writeError => false

/-- The condition on which `wait` ends: `BUSY` reads 0 (R105). -/
def waitEnds (r : Response) : Bool := pollEnds 0x1#32 0x0#32 r

/-- `fill V`: every framebuffer word in ascending order (R105). -/
def fillLines (v : Word) : List HostLine := (List.range 1024).map fun i => lineFbWrite (BitVec.ofNat 10 i) v

/-- `clear` (R153). -/
def clearLines : List HostLine := fillLines 0#32

/-- `TESTPAT` (R7, D35, U9): the four corner values, an argument of the host procedures. -/
structure TestPattern where
  topLeft : Word
  topRight : Word
  bottomLeft : Word
  bottomRight : Word
  deriving DecidableEq, Repr

/-- Exactly one channel is not 0, and bits 31:24 are 0 (R154, D35). -/
def singleChannel (v : Word) : Bool :=
  v.extractLsb' 24 8 == 0#8 &&
    ((chanA v != 0#8 && chanB v == 0#8 && chanC v == 0#8) || (chanA v == 0#8 && chanB v != 0#8 && chanC v == 0#8) ||
      (chanA v == 0#8 && chanB v == 0#8 && chanC v != 0#8))

/-- The limits the spec sets on `TESTPAT` (R154, D35). -/
def TestPattern.legal (t : TestPattern) : Bool :=
  singleChannel t.topLeft && singleChannel t.topRight && singleChannel t.bottomLeft && singleChannel t.bottomRight &&
    decide [t.topLeft, t.topRight, t.bottomLeft, t.bottomRight].Nodup

/-- `fill_test_pattern` (R154): the four corner pixels and no other. -/
def testPatternLines (t : TestPattern) : List HostLine :=
  [linePix 0#5 0#5 t.topLeft, linePix 31#5 0#5 t.topRight, linePix 0#5 31#5 t.bottomLeft,
    linePix 31#5 31#5 t.bottomRight]

/-- `RAND_COUNTER_INIT` (R7, R155). -/
def randCounterInit : BitVec 8 := 0#8

/-- The counter's advance at the head of `randomize`: 8 bits, wrapping (R155). -/
def randAdvance (c : BitVec 8) : BitVec 8 := c + 1#8

/-- The brightness ceiling `max(1, LUT[c])` (R156). -/
def ceiling (c : BitVec 8) : Nat := max 1 (lut c).toNat

/-- A sample in `[0, ceil - 1]` from a draw of `PRNG` (R157, U10). -/
def boundedSample (ceil draw : Nat) : Byte := BitVec.ofNat 8 (draw % ceil)

/-- `randomize` with the counter already advanced to `c` (R156, R157): the ceiling is looked up, then every pixel is
written through the gamma alias; `prng k` is the `k`-th draw. -/
def randomizeLines (c : BitVec 8) (prng : Nat → Nat) : List HostLine :=
  lineLut c :: (List.range 1024).map fun i =>
    .wr (windowOffset 0b11#2 (BitVec.ofNat 10 i))
      (0#8 ++ boundedSample (ceiling c) (prng (3 * i + 2)) ++ boundedSample (ceiling c) (prng (3 * i + 1)) ++
        boundedSample (ceiling c) (prng (3 * i)))

/-- Whether the reference loop calls `randomize` after completing its `n`-th frame (R159). -/
def randomizeDue (n : Nat) : Bool := n % 5 == 0

/-- Whether the reference loop sends a heartbeat after completing its `n`-th frame (R159, R160). -/
def heartbeatDue (n : Nat) : Bool := n % 200 == 0

/-- The boot lines of R345: an optional base unit, `clear`, the test pattern, optional interrupt enables. -/
def bootLines (base : Option Word) (t : TestPattern) (ie : Option (BitVec 2)) : List HostLine :=
  (base.map lineSetbase).toList ++ clearLines ++ testPatternLines t ++
    (ie.map fun e => HostLine.wr 0x2000#14 (0#29 ++ e ++ 0#1)).toList

end Sys2Proof.Machine
end

