-- ==== Sys2Proof/Machine/TraceText.lean ====
section
/-!
DEFINITION. The trace text of R106: one line per event.
-/
namespace Sys2Proof.Machine

/-- A bit as a digit. -/
def bitText (b : Bool) : String := if b then "1" else "0"

/-- The six colour bits, bit 5 (`BOT_C`) first (R106). -/
def lines6Text (b : BitVec 6) : String :=
  bitText (b.getLsbD 5) ++ bitText (b.getLsbD 4) ++ bitText (b.getLsbD 3) ++ bitText (b.getLsbD 2) ++
    bitText (b.getLsbD 1) ++ bitText (b.getLsbD 0)

/-- ` s=S p=P` of R106. -/
def scanText (row : BitVec 4) (plane : BitVec 3) : String :=
  " s=" ++ toString row.toNat ++ " p=" ++ toString plane.toNat

/-- The text of an event (R106); a host transaction has none. -/
def traceText : Instr → Option String
  | .frameStart baseu => some ("FRAME_START base=" ++ toString baseu.toNat)
  | .addr row => some ("ADDR s=" ++ toString row.toNat)
  | .color row plane col lines6 =>
    some ("COLOR" ++ scanText row plane ++ " x=" ++ toString col.toNat ++ " lines=" ++ lines6Text lines6)
  | .clk row plane col => some ("CLK" ++ scanText row plane ++ " x=" ++ toString col.toNat)
  | .lat row plane => some ("LAT" ++ scanText row plane)
  | .enOn row plane => some ("EN_ON" ++ scanText row plane)
  | .hold dur => some ("HOLD d=" ++ toString dur.toNat)
  | .enOff row plane => some ("EN_OFF" ++ scanText row plane)
  | .frameEnd count => some ("FRAME_END n=" ++ toString count.toNat)
  | .fbRd _ | .fbWr _ _ | .lutRd _ | .fbgRd _ | .fbgWr _ _ | .ctrlRd | .ctrlWr _ | .statusRd | .statusWr _
  | .baseRd | .baseWr _ | .framesRd | .scanposRd | .linesRd | .errcauseRd | .erraddrRd
  | .busErrSizeNarrow _ _ _ | .busErrSizeReserved _ _ | .busErrAlignOdd _ _ | .busErrAlignEven _ _
  | .busErrRoLut _ _ | .busErrRoFrames _ | .busErrRoScanpos _ | .busErrRoLines _ | .busErrRoErrcause _
  | .busErrRoErraddr _ | .busErrUnmapped _ _ => none

end Sys2Proof.Machine
end

