-- ==== Sys2Proof/Tests/Slice0.lean ====
section
/-!
SUPPORT. Tests of the model: ill-formed terms that WellFormed refuses, one decoding per constructor from a word written out
from 30_encoding.md, one-step tests with the results of 95_test_vectors.md, and a witness for the hypotheses of every
statement.
-/
namespace Sys2Proof.Tests

open Sys2Proof.Machine Sys2Proof.Claims

/-! ### WellFormed refuses what no key of the row spells (R95) -/

theorem test_wellFormed_alignOdd_needs_bit0 : (Instr.busErrAlignOdd 0x1402#14 .read).wellFormed = false := by decide
theorem test_wellFormed_alignOdd_accepts : (Instr.busErrAlignOdd 0x1401#14 .read).wellFormed = true := by decide
theorem test_wellFormed_alignEven_needs_bit1 : (Instr.busErrAlignEven 0x1400#14 .read).wellFormed = false := by decide
theorem test_wellFormed_alignEven_excludes_bit0 : (Instr.busErrAlignEven 0x1403#14 .read).wellFormed = false := by decide
theorem test_wellFormed_alignEven_accepts : (Instr.busErrAlignEven 0x2002#14 .read).wellFormed = true := by decide
theorem test_wellFormed_unmapped_needs_alignment :
    (Instr.busErrUnmapped 0x1402#14 .read).wellFormed = false ∧
      (Instr.busErrUnmapped 0x1401#14 .read).wellFormed = false := by decide
theorem test_wellFormed_unmapped_needs_a_reserved_range :
    (Instr.busErrUnmapped 0x13FC#14 .read).wellFormed = false ∧ (Instr.busErrUnmapped 0x2000#14 .read).wellFormed = false ∧
      (Instr.busErrUnmapped 0x201C#14 .read).wellFormed = false ∧
      (Instr.busErrUnmapped 0x3000#14 .read).wellFormed = false := by decide
theorem test_wellFormed_unmapped_accepts_the_ends :
    (Instr.busErrUnmapped 0x1400#14 .read).wellFormed = true ∧ (Instr.busErrUnmapped 0x1FFC#14 .read).wellFormed = true ∧
      (Instr.busErrUnmapped 0x2020#14 .read).wellFormed = true ∧
      (Instr.busErrUnmapped 0x2FFC#14 .read).wellFormed = true := by decide

/-! ### One word per constructor: keys of 95_test_vectors.md sections 2.1-2.10, events of sections 2.5-2.8 -/

theorem test_decode_fbRd : decodeTableWord 24 0x1007C = some (.fbRd 31#10) := by decide
theorem test_decode_fbWr : decodeTableWord 24 0x14FFC = some (.fbWr 1023#10 0#32) := by decide
theorem test_decode_lutRd : decodeTableWord 24 0x11200 = some (.lutRd 128#8) := by decide
theorem test_decode_fbgRd : decodeTableWord 24 0x13800 = some (.fbgRd 512#10) := by decide
theorem test_decode_fbgWr : decodeTableWord 24 0x17010 = some (.fbgWr 4#10 0#32) := by decide
theorem test_decode_ctrlRd : decodeTableWord 24 0x12000 = some .ctrlRd := by decide
theorem test_decode_ctrlWr : decodeTableWord 24 0x16000 = some (.ctrlWr 0#32) := by decide
theorem test_decode_statusRd : decodeTableWord 24 0x12004 = some .statusRd := by decide
theorem test_decode_statusWr : decodeTableWord 24 0x16004 = some (.statusWr 0#32) := by decide
theorem test_decode_baseRd : decodeTableWord 24 0x12008 = some .baseRd := by decide
theorem test_decode_baseWr : decodeTableWord 24 0x16008 = some (.baseWr 0#32) := by decide
theorem test_decode_framesRd : decodeTableWord 24 0x1200C = some .framesRd := by decide
theorem test_decode_scanposRd : decodeTableWord 24 0x12010 = some .scanposRd := by decide
theorem test_decode_linesRd : decodeTableWord 24 0x12014 = some .linesRd := by decide
theorem test_decode_errcauseRd : decodeTableWord 24 0x12018 = some .errcauseRd := by decide
theorem test_decode_erraddrRd : decodeTableWord 24 0x1201C = some .erraddrRd := by decide
theorem test_decode_busErrSizeNarrow_byte :
    decodeTableWord 24 0x04000 = some (.busErrSizeNarrow false 0#14 (.write 0#32)) := by decide
theorem test_decode_busErrSizeNarrow_half :
    decodeTableWord 24 0x09000 = some (.busErrSizeNarrow true 0x1000#14 .read) := by decide
theorem test_decode_busErrSizeReserved : decodeTableWord 24 0x18000 = some (.busErrSizeReserved 0#14 .read) := by decide
theorem test_decode_busErrAlignOdd : decodeTableWord 24 0x11401 = some (.busErrAlignOdd 0x1401#14 .read) := by decide
theorem test_decode_busErrAlignEven :
    decodeTableWord 24 0x16002 = some (.busErrAlignEven 0x2002#14 (.write 0#32)) := by decide
theorem test_decode_busErrRoLut : decodeTableWord 24 0x153FC = some (.busErrRoLut 255#8 0#32) := by decide
theorem test_decode_busErrRoFrames : decodeTableWord 24 0x1600C = some (.busErrRoFrames 0#32) := by decide
theorem test_decode_busErrRoScanpos : decodeTableWord 24 0x16010 = some (.busErrRoScanpos 0#32) := by decide
theorem test_decode_busErrRoLines : decodeTableWord 24 0x16014 = some (.busErrRoLines 0#32) := by decide
theorem test_decode_busErrRoErrcause : decodeTableWord 24 0x16018 = some (.busErrRoErrcause 0#32) := by decide
theorem test_decode_busErrRoErraddr : decodeTableWord 24 0x1601C = some (.busErrRoErraddr 0#32) := by decide
theorem test_decode_busErrUnmapped : decodeTableWord 24 0x12FFC = some (.busErrUnmapped 0x2FFC#14 .read) := by decide
theorem test_decode_frameStart : decodeTableWord 32 0x1000FFFF = some (.frameStart 0xFFFF#16) := by decide
theorem test_decode_addr : decodeTableWord 32 0x2000000F = some (.addr 15#4) := by decide
theorem test_decode_color : decodeTableWord 32 0x30730C3F = some (.color 7#4 3#3 12#5 0x3F#6) := by decide
theorem test_decode_clk : decodeTableWord 32 0x40F71F00 = some (.clk 15#4 7#3 31#5) := by decide
theorem test_decode_lat : decodeTableWord 32 0x50370000 = some (.lat 3#4 7#3) := by decide
theorem test_decode_enOn : decodeTableWord 32 0x60F70000 = some (.enOn 15#4 7#3) := by decide
theorem test_decode_hold : decodeTableWord 32 0x707FFF80 = some (.hold 8388480#24) := by decide
theorem test_decode_enOff : decodeTableWord 32 0x80030000 = some (.enOff 0#4 3#3) := by decide
theorem test_decode_frameEnd : decodeTableWord 32 0x900003E8 = some (.frameEnd 1000#28) := by decide

/-- A write's data word follows its key (R91): `wr FBG + 0, 0xAB10FF80`. -/
theorem test_decode_data_word :
    decode [0x00#8, 0x70#8, 0x01#8, 0x00#8, 0x80#8, 0xFF#8, 0x10#8, 0xAB#8] = .ok (.fbgWr 0#10 0xAB10FF80#32, []) := by decide
/-- Kinds 0 and 10 to 15 and set reserved bits are refused (R99); a key has 17 bits (R91). -/
theorem test_decode_rejects :
    decodeEvent 0xA0000000#32 = .reject .reservedKind ∧ decodeEvent 0xF0000000#32 = .reject .reservedKind ∧
      decodeEvent 0#32 = .reject .reservedKind ∧ decodeEvent 0x20000010#32 = .reject .reservedBits ∧
      decodeEvent 0x30080000#32 = .reject .reservedBits ∧ decodeEvent 0x71000000#32 = .reject .reservedBits ∧
      decodeTableWord 24 0x20000 = none := by decide
theorem test_encode_fbgWr : encode (.fbgWr 0#10 0xAB10FF80#32) =
    [0x00#8, 0x70#8, 0x01#8, 0x00#8, 0x80#8, 0xFF#8, 0x10#8, 0xAB#8] := by decide
theorem test_encode_color : encodeEvent (.color 1#4 2#3 3#5 0b001100#6) = 0x3012030C#32 := by decide

/-! ### One step: 95_test_vectors.md section 2 -/

/-- The state after reset of an instance whose `BASE_RESET` is the default 1, which the vectors assume. -/
def booted : State := { State.reset with base := 1#16, baseAct := 1#16 }

/-- What a completed step shows. -/
def seen {α : Type} (f : State → α) : Host.Outcome State Fault Refusal → Option α
  | .next t => some (f t)
  | .fault _ | .refused _ => none

/-- The answer to the last transaction. -/
def answer (st : State) : Option Response := st.responses.getLast?

/-- The last event of the trace. -/
def lastEvent (st : State) : Option Word := st.trace.getLast?.map (·.word)

/-- `booted`, moved to a position of the sequencer. -/
def at' (q : SeqState) (s : BitVec 4) (p : BitVec 3) (x : BitVec 5) : State :=
  { booted with state := q, s := s, p := p, x := x }

/-- `booted` with one framebuffer word written. -/
def withPixel (idx : BitVec 10) (w : Word) : State := booted.storePixel idx w

theorem test_fbRd_returns_the_word :
    seen answer (exec (.fbRd 31#10) (withPixel 31#10 0x12345678#32)) = some (some (.read 0x12345678#32)) := by decide
theorem test_fbRd_records_an_unwritten_word :
    seen State.record (exec (.fbRd 4#10) booted) = some [⟨.uninitFbRead, .fbRd 4#10⟩] := by decide
/-- R69: read again, also through the alias, an unwritten word gives the same word. -/
theorem test_fbRd_unwritten_word_reads_again :
    ∃ v : Word, seen answer (exec (.fbRd 4#10) booted) = some (some (.read v)) ∧
      seen (fun t => seen answer (exec (.fbgRd 4#10) t)) (exec (.fbRd 4#10) booted) = some (some (some (.read v))) :=
  ⟨_, rfl, rfl⟩
theorem test_fbWr_stores :
    seen (fun t => t.fb 512#10) (exec (.fbWr 512#10 0x00800000#32) booted) = some (some 0x00800000#32) := by decide
theorem test_fbWr_busy_sets_scanWr :
    seen State.statusWord (exec (.fbWr 0#10 0xFF#32) (at' .row 0#4 0#3 0#5)) = some 0x5#32 := by decide
theorem test_lutRd_near_integer_corners :
    seen answer (exec (.lutRd 19#8) booted) = some (some (.read 4#32)) ∧
      seen answer (exec (.lutRd 133#8) booted) = some (some (.read 89#32)) := by decide
theorem test_fbgRd_is_not_inverted :
    seen answer (exec (.fbgRd 0#10) (withPixel 0#10 0xAB03FF54#32)) = some (some (.read 0xAB03FF54#32)) := by decide
theorem test_fbgWr_stores_the_gamma_word :
    seen (fun t => t.fb 0#10) (exec (.fbgWr 0#10 0xAB10FF80#32) booted) = some (some 0xAB03FF54#32) := by decide
theorem test_fbgWr_orders_the_channels :
    seen (fun t => t.fb 4#10) (exec (.fbgWr 4#10 0x00132085#32) booted) = some (some 0x00040959#32) := by decide
theorem test_ctrlRd_reads_the_enables :
    seen answer (exec .ctrlRd { booted with ctrl := ⟨true, false⟩ }) = some (some (.read 2#32)) := by decide
theorem test_ctrlWr_goes : seen (fun t => (t.state, t.ctrlWord, lastEvent t)) (exec (.ctrlWr 7#32) booted) =
    some (.row, 6#32, some 0x10000001#32) := by decide
theorem test_ctrlWr_busy : seen (fun t => (t.state, t.ctrlWord, t.statusWord)) (exec (.ctrlWr 1#32) (at' .col 1#4 3#3 10#5)) =
    some (.col, 0#32, 9#32) := by decide
theorem test_statusRd_after_a_frame :
    seen answer (exec .statusRd { booted with status := ⟨true, false, false, false⟩ }) = some (some (.read 2#32)) := by
  decide
theorem test_statusWr_clears_one_flag :
    seen State.statusWord (exec (.statusWr 2#32) { booted with status := ⟨true, false, false, true⟩ }) =
      some 0x10#32 := by decide
theorem test_statusWr_cannot_write_busy :
    seen State.statusWord (exec (.statusWr 1#32) { booted with status := ⟨true, true, true, true⟩ }) =
      some 0x1E#32 := by decide
theorem test_baseRd_at_reset (h : Config.baseReset = 1#16) :
    seen answer (exec .baseRd State.reset) = some (some (.read 1#32)) := by
  simp [seen, answer, exec, execBaseRd, State.respond, State.reset, h]
/-- `booted` is the state after reset where `BASE_RESET` is the default. -/
theorem test_booted_is_reset (h : Config.baseReset = 1#16) : booted = State.reset := by
  simp [booted, State.reset, h]
theorem test_baseWr_keeps_16_bits : seen State.base (exec (.baseWr 0x12345#32) booted) = some 0x2345#16 := by decide
theorem test_baseWr_zero_is_one :
    seen State.base (exec (.baseWr 0#32) { booted with base := 5#16 }) = some 1#16 := by decide
theorem test_framesRd : seen answer (exec .framesRd { booted with frames := 0x3E8#32 }) = some (some (.read 0x3E8#32)) := by
  decide
theorem test_scanposRd_in_col :
    seen answer (exec .scanposRd (at' .col 1#4 3#3 10#5)) = some (some (.read 0x0201030A#32)) := by decide
theorem test_scanposRd_in_hold :
    seen answer (exec .scanposRd (at' .hold 2#4 5#3 31#5)) = some (some (.read 0x0602051F#32)) := by decide
theorem test_linesRd_in_hold :
    seen answer (exec .linesRd { at' .hold 5#4 0#3 31#5 with lines := { Lines.low.drive 5#4 with en := true } }) =
      some (some (.read 0x1005#32)) := by decide
theorem test_linesRd_shows_the_irq :
    seen answer (exec .linesRd
      { booted with
          lines := Lines.low.drive 15#4
          ctrl := ⟨true, false⟩
          status := ⟨true, false, false, false⟩ }) = some (some (.read 0x200F#32)) := by decide
theorem test_errcauseRd : seen answer (exec .errcauseRd { booted with errCause := 3#3 }) = some (some (.read 3#32)) := by
  decide
theorem test_erraddrRd :
    seen answer (exec .erraddrRd { booted with errKey := 0x11400#17 }) = some (some (.read 0x11400#32)) := by decide

/-- Cause, key, `BUSERR` and answer after a transaction. -/
def errorSeen (key : Key) (w : Word) : Option (Nat × Key × Word × Option Response) :=
  seen (fun t => (t.errCause.toNat, t.errKey, t.statusWord, answer t)) (exec (decodeKey key w) booted)

theorem test_buserr_size_narrow : errorSeen 0x09000#17 0#32 = some (1, 0x09000#17, 0x10#32, some (.readError 0#32)) := by decide
theorem test_buserr_size_beats_align : errorSeen 0x01401#17 0#32 = some (1, 0x01401#17, 0x10#32, some (.readError 0#32)) := by
  decide
theorem test_buserr_size_reserved : errorSeen 0x18000#17 0#32 = some (1, 0x18000#17, 0x10#32, some (.readError 0#32)) := by decide
theorem test_buserr_align_odd : errorSeen 0x11401#17 0#32 = some (2, 0x11401#17, 0x10#32, some (.readError 0#32)) := by decide
theorem test_buserr_align_even_starts_no_frame :
    errorSeen 0x16002#17 1#32 = some (2, 0x16002#17, 0x10#32, some .writeError) := by decide
theorem test_buserr_unmapped_read : errorSeen 0x12FFC#17 0#32 = some (3, 0x12FFC#17, 0x10#32, some (.readError 0#32)) := by decide
theorem test_buserr_unmapped_write : errorSeen 0x16020#17 0#32 = some (3, 0x16020#17, 0x10#32, some .writeError) := by decide
theorem test_buserr_ro_lut : errorSeen 0x15000#17 5#32 = some (4, 0x15000#17, 0x10#32, some .writeError) := by decide
theorem test_buserr_ro_frames : errorSeen 0x1600C#17 0#32 = some (4, 0x1600C#17, 0x10#32, some .writeError) := by decide
theorem test_buserr_ro_scanpos : errorSeen 0x16010#17 0#32 = some (4, 0x16010#17, 0x10#32, some .writeError) := by decide
theorem test_buserr_ro_lines : errorSeen 0x16014#17 0#32 = some (4, 0x16014#17, 0x10#32, some .writeError) := by decide
theorem test_buserr_ro_errcause : errorSeen 0x16018#17 0#32 = some (4, 0x16018#17, 0x10#32, some .writeError) := by decide
theorem test_buserr_ro_erraddr : errorSeen 0x1601C#17 0#32 = some (4, 0x1601C#17, 0x10#32, some .writeError) := by decide

theorem test_frameStart_latches :
    seen (fun t => (t.state, t.baseAct, lastEvent t)) (exec (.frameStart 0xFFFF#16) { booted with base := 0xFFFF#16 }) =
      some (.row, 0xFFFF#16, some 0x1000FFFF#32) := by decide
theorem test_frameStart_stuck_when_busy :
    exec (.frameStart 1#16) (at' .row 0#4 0#3 0#5) = .fault .stepNotEnabled := by rfl
theorem test_addr_drives_ten :
    seen (fun t => (t.linesWord, lastEvent t, t.state)) (exec (.addr 10#4) (at' .row 10#4 0#3 0#5)) =
      some (0xA#32, some 0x2000000A#32, .col) := by decide
/-- The vector `s = 1, p = 2, x = 3` of section 2.5: pixels 35 and 547. -/
theorem test_color_drives_both_halves :
    seen (fun t => (lastEvent t, t.state, t.record.length))
      (exec (.color 1#4 2#3 3#5 0b001100#6)
        ((at' .col 1#4 2#3 3#5).storePixel 35#10 0x00040000#32 |>.storePixel 547#10 0x00000004#32)) =
      some (some 0x3012030C#32, .clk, 0) := by decide
theorem test_color_ignores_bits_31_24 :
    seen lastEvent (exec (.color 0#4 0#3 0#5 0#6)
      ((at' .col 0#4 0#3 0#5).storePixel 0#10 0xFF000000#32 |>.storePixel 512#10 0xFF000000#32)) =
      some (some 0x30000000#32) := by decide
theorem test_clk_moves_to_the_next_column :
    seen (fun t => (lastEvent t, t.state, t.x)) (exec (.clk 0#4 0#3 30#5) (at' .clk 0#4 0#3 30#5)) =
      some (some 0x40001E00#32, .col, 31#5) := by decide
theorem test_clk_ends_the_columns :
    seen (fun t => (lastEvent t, t.state, t.x)) (exec (.clk 15#4 7#3 31#5) (at' .clk 15#4 7#3 31#5)) =
      some (some 0x40F71F00#32, .lat, 31#5) := by decide
theorem test_lat_latches :
    seen (fun t => (lastEvent t, t.state, t.outReg.toList))
      (exec (.lat 3#4 7#3) { at' .lat 3#4 7#3 31#5 with shiftReg := Vector.replicate 32 (coloursOfBits 5#6) }) =
      some (some 0x50370000#32, .enon, List.replicate 32 (coloursOfBits 5#6)) := by decide
theorem test_enOn_enables :
    seen (fun t => (lastEvent t, t.state, t.lines.en, t.t)) (exec (.enOn 15#4 7#3) (at' .enon 15#4 7#3 31#5)) =
      some (some 0x60F70000#32, .hold, true, 0) := by decide
theorem test_hold_of_base_three :
    seen (fun t => (lastEvent t, t.state, t.t)) (exec (.hold 12#24) { at' .hold 0#4 2#3 31#5 with baseAct := 3#16 }) =
      some (some 0x7000000C#32, .enoff, 12) := by decide
theorem test_hold_largest :
    seen (fun t => (lastEvent t, t.t)) (exec (.hold 8388480#24) { at' .hold 0#4 7#3 31#5 with baseAct := 65535#16 }) =
      some (some 0x707FFF80#32, 8388480) := by decide
theorem test_enOff_next_plane :
    seen (fun t => (lastEvent t, position t)) (exec (.enOff 0#4 3#3) (at' .enoff 0#4 3#3 31#5)) =
      some (some 0x80030000#32, .col, 0, 4, 0) := by decide
theorem test_enOff_next_row :
    seen (fun t => (lastEvent t, position t)) (exec (.enOff 0#4 7#3) (at' .enoff 0#4 7#3 31#5)) =
      some (some 0x80070000#32, .row, 1, 0, 0) := by decide
theorem test_enOff_frame_end :
    seen (fun t => (lastEvent t, position t)) (exec (.enOff 15#4 7#3) (at' .enoff 15#4 7#3 31#5)) =
      some (some 0x80F70000#32, .fend, 15, 7, 31) := by decide
theorem test_frameEnd_low_28_bits :
    seen (fun t => (t.frames, lastEvent t, t.statusWord))
      (exec (.frameEnd 0#28) { at' .fend 15#4 7#3 31#5 with frames := 0x0FFFFFFF#32 }) =
      some (0x10000000#32, some 0x90000000#32, 2#32) := by decide
theorem test_frameEnd_wraps :
    seen State.frames (exec (.frameEnd 0#28) { at' .fend 15#4 7#3 31#5 with frames := 0xFFFFFFFF#32 }) = some 0#32 := by decide

/-- W4: the ceilings of the 1st, 32nd, 200th and 256th call. -/
theorem test_ceiling : ceiling 1#8 = 1 ∧ ceiling 32#8 = 9 ∧ ceiling 200#8 = 172 ∧ ceiling 0#8 = 1 := by decide
/-- R104: `wr STATUS, 0x1E` is the `ack` line. -/
theorem test_assemble : assemble lineAck = .host 0x16004#17 0x1E#32 ∧ assemble (linePix 0#5 16#5 7#32) = .host 0x14800#17 7#32 := by
  decide
/-- R106: the text of a `COLOR` event. -/
theorem test_traceText : traceText (.color 1#4 2#3 3#5 0b001100#6) = some "COLOR s=1 p=2 x=3 lines=001100" := by decide

/-- The instruction placed by `withFetchWord` is the one the next step runs. -/
theorem test_withFetchWord_key :
    seen (fun t => (answer t, t.agenda)) (step (booted.withFetchWord 24 0x12008)) = some (some (.read 1#32), []) := by decide
theorem test_withFetchWord_event :
    seen lastEvent (step (booted.withFetchWord 32 0x30730C3F)) = some (some 0x30730C3F#32) := by decide
theorem test_withFetchWord_hold :
    seen lastEvent (step (booted.withFetchWord 32 0x707FFF80)) = some (some 0x707FFF80#32) := by decide

/-! ### Witnesses: states and operands that meet the hypotheses of each statement -/

/-- A framebuffer with `n` bytes `0x55` from an address on. -/
def filled : Nat → Nat → Memory
  | 0, _ => []
  | n + 1, a => (a, 0x55#8) :: filled n (a + 1)

theorem test_filled_read (n : Nat) : ∀ a c, a ≤ c → c < a + n → (filled n a).read c = some 0x55#8 := by
  induction n with
  | zero => intro a c h1 h2; omega
  | succ n ih =>
    intro a c h1 h2
    unfold filled Memory.read
    split
    · rfl
    · exact ih (a + 1) c (by omega) (by omega)

theorem test_filled_fb (st : State) (h : st.mem = filled 4096 0) (idx : BitVec 10) : st.fb idx = some 0x55555555#32 := by
  have hi := idx.isLt
  unfold State.fb Memory.readWord pixelAddress
  rw [h, test_filled_read _ _ _ (by omega) (by omega), test_filled_read _ _ _ (by omega) (by omega),
    test_filled_read _ _ _ (by omega) (by omega), test_filled_read _ _ _ (by omega) (by omega)]
  rfl

theorem test_witness_ResetTurnPerformsTheResetAction :
    ∃ (s : State) (rest : List Turn), s.agenda = .reset :: rest ∧ s.state = .hold :=
  ⟨{ at' .hold 0#4 7#3 31#5 with agenda := [.reset, .engine] }, [.engine], rfl, rfl⟩

theorem test_witness_StepRunsTheNextTurn :
    (∃ (s : State) (key : Key) (w : Word) (rest : List Turn), s.agenda = .host key w :: rest) ∧
      (∃ (s : State) (w : Word) (rest : List Turn) (i : Instr), s.agenda = .event w :: rest ∧ decodeEvent w = .ok i) ∧
      (∃ (s : State) (w : Word) (rest : List Turn) (e : DecodeError),
        s.agenda = .event w :: rest ∧ decodeEvent w = .reject e) ∧
      (∃ (s : State) (rest : List Turn) (i : Instr), s.agenda = .engine :: rest ∧ s.engineNext = some i) ∧
      (∃ (s : State) (i : Instr), s.agenda = [] ∧ s.engineNext = some i) ∧
      (∃ (s : State) (rest : List Turn), s.agenda = .engine :: rest ∧ s.state = .idle) ∧
      ∃ s : State, s.agenda = [] ∧ s.state = .idle :=
  ⟨⟨{ booted with agenda := [.host 0x1FFFF#17 7#32] }, 0x1FFFF#17, 7#32, [], rfl⟩,
    ⟨{ booted with agenda := [.event 0x10000001#32] }, 0x10000001#32, [], .frameStart 1#16, rfl, by decide⟩,
    ⟨{ booted with agenda := [.event 0xA0000000#32] }, 0xA0000000#32, [], .reservedKind, rfl, by decide⟩,
    ⟨{ at' .row 3#4 0#3 0#5 with agenda := [.engine] }, [], .addr 3#4, rfl, rfl⟩,
    ⟨at' .fend 15#4 7#3 31#5, .frameEnd 1#28, rfl, by decide⟩,
    ⟨{ booted with agenda := [.engine] }, [], rfl, rfl⟩, ⟨booted, rfl, rfl⟩⟩

theorem test_witness_EncodedInstructionRunsAsTheNextTurn :
    (∃ (i : Instr) (s : State) (turn : Turn) (rest : List Turn), i.wellFormed = true ∧ spells i turn ∧
      s.agenda = turn :: rest ∧ i = .busErrUnmapped 0x2FFC#14 (.write 9#32)) ∧
    (∃ (i : Instr) (s : State) (turn : Turn) (rest : List Turn), i.wellFormed = true ∧ spells i turn ∧
      s.agenda = turn :: rest ∧ i = .fbRd 1023#10) ∧
    ∃ (i : Instr) (s : State) (turn : Turn) (rest : List Turn), i.wellFormed = true ∧ spells i turn ∧
      s.agenda = turn :: rest ∧ i = .hold 0xFFFFFF#24 :=
  ⟨⟨_, { booted with agenda := [.host 0x16FFC#17 9#32] }, _, [], by decide,
      .inr ⟨rfl, 9#32, .inr rfl, rfl⟩, rfl, rfl⟩,
    ⟨_, { booted with agenda := [.host 0x10FFC#17 5#32] }, _, [], by decide,
      .inr ⟨rfl, 5#32, .inl rfl, rfl⟩, rfl, rfl⟩,
    ⟨_, { booted with agenda := [.event 0x70FFFFFF#32] }, _, [], by decide, .inl ⟨rfl, rfl⟩, rfl, rfl⟩⟩

theorem test_witness_DecodeInvertsEncode :
    (Instr.busErrAlignEven 0x3FFE#14 (.write 0xFFFFFFFF#32)).wellFormed = true ∧
      (Instr.frameEnd 0xFFFFFFF#28).wellFormed = true ∧ (Instr.fbRd 0#10).wellFormed = true := by decide

theorem test_witness_EventDecodeLosesNothing :
    decodeEvent 0x3FFFFFFF#32 = .reject .reservedBits ∧ decodeEvent 0x30F71F3F#32 = .ok (.color 15#4 7#3 31#5 63#6) := by decide

theorem test_witness_ReservedEventWordsAreRejected :
    decodeEvent 0x0FFFFFFF#32 = .reject .reservedKind ∧ decodeEvent 0xA0000000#32 = .reject .reservedKind ∧
      decodeEvent 0x9FFFFFFF#32 = .ok (.frameEnd 0xFFFFFFF#28) ∧ decodeEvent 0x10000000#32 = .ok (.frameStart 0#16) ∧
      decodeEvent 0x10010000#32 = .reject .reservedBits ∧ (Instr.frameStart 0#16).isEvent = true := by decide

/-- A key of each cause and legal keys, at the ends of the ranges of R64. -/
theorem test_witness_BusErrorCauseFollowsThePriority :
    causeOf 0x0FFFF#17 = some 1#3 ∧ causeOf 0x18000#17 = some 1#3 ∧ causeOf 0x10001#17 = some 2#3 ∧
      causeOf 0x17FFE#17 = some 2#3 ∧ causeOf 0x11400#17 = some 3#3 ∧ causeOf 0x15FFC#17 = some 3#3 ∧
      causeOf 0x12020#17 = some 3#3 ∧ causeOf 0x16FFC#17 = some 3#3 ∧ causeOf 0x15000#17 = some 4#3 ∧
      causeOf 0x153FC#17 = some 4#3 ∧ causeOf 0x1601C#17 = some 4#3 ∧ causeOf 0x1201C#17 = none ∧
      causeOf 0x113FC#17 = none ∧ causeOf 0x14FFC#17 = none ∧ causeOf 0x13000#17 = none := by decide

theorem test_witness_FbReadReturnsTheWord :
    (withPixel 1023#10 7#32).fb 1023#10 = some 7#32 ∧ (withPixel 1023#10 7#32).fb 1022#10 = none ∧
      (withPixel 0#10 7#32).fb 0#10 = some 7#32 := by decide

theorem test_witness_FbgReadReturnsTheStoredWord :
    (withPixel 0#10 0xFFFFFFFF#32).fb 0#10 = some 0xFFFFFFFF#32 ∧ booted.fb 1023#10 = none := by decide

/-- Bytes just below and just above the last word and the first. -/
theorem test_witness_FbWriteStoresTheWord :
    (4091 < 4 * (1023#10).toNat) ∧ 4 * (0#10).toNat + 4 ≤ 4 ∧
      seen (fun t => (t.mem.read 4091, t.mem.read 4092, t.mem.read 4095, t.mem.read 4096))
        (exec (.fbWr 1023#10 0xAABBCCDD#32) (withPixel 1022#10 0x11223344#32)) =
        some (some 0x11#8, some 0xDD#8, some 0xAA#8, none) := by decide

theorem test_witness_FbgWriteStoresTheGammaWord :
    (4 * (0#10).toNat + 4 ≤ 4) ∧
      seen (fun t => (t.fb 0#10, t.fb 1#10)) (exec (.fbgWr 0#10 0x12FEFE01#32) (withPixel 1#10 5#32)) =
        some (some 0x12FDFD00#32, some 5#32) := by decide

theorem test_witness_LutIsMonotoneWithFixedEnds :
    (0#8).toNat ≤ (255#8).toNat ∧ (7#8).toNat ≤ 7 ∧ 8 ≤ (8#8).toNat ∧ (12#8).toNat ≤ 12 ∧ (254#8 : BitVec 8) ≠ 255#8 ∧
      lut 7#8 = 0#8 ∧ lut 8#8 = 1#8 ∧ lut 12#8 = 1#8 ∧ lut 13#8 = 2#8 := by decide

theorem test_witness_CtrlWriteSetsEnablesAndGoes :
    (6#32 : Word).getLsbD 0 = false ∧ (7#32 : Word).getLsbD 0 = true ∧ booted.state = .idle ∧
      (at' .fend 15#4 7#3 31#5).state ≠ .idle := by decide

theorem test_witness_HostReadsHaveNoSideEffect :
    (Instr.fbRd 1023#10).isEvent = false ∧ accessOf (.fbRd 1023#10) = .read ∧ isBusError (.fbRd 1023#10) = false ∧
      ((withPixel 1023#10 0#32).fb 1023#10).isSome = true ∧ Instr.statusRd.isEvent = false ∧
      accessOf .statusRd = .read ∧ isBusError .statusRd = false := by decide

/-- A register, the gamma table, a written word and an unwritten one. -/
theorem test_witness_HostReadsAreIdempotent :
    (Instr.linesRd.isEvent = false ∧ accessOf .linesRd = .read ∧ isBusError .linesRd = false) ∧
      ((Instr.lutRd 255#8).isEvent = false ∧ accessOf (.lutRd 255#8) = .read ∧ isBusError (.lutRd 255#8) = false) ∧
      ((Instr.fbRd 0#10).isEvent = false ∧ accessOf (.fbRd 0#10) = .read ∧ isBusError (.fbRd 0#10) = false ∧
        booted.fb 0#10 = none ∧ (withPixel 0#10 1#32).fb 0#10 = some 1#32) ∧
      (Instr.fbgRd 1023#10).isEvent = false ∧ accessOf (.fbgRd 1023#10) = .read ∧ isBusError (.fbgRd 1023#10) = false := by
  decide

theorem test_witness_WeightsDoubleExactly : (7#3 : BitVec 3).toNat = (6#3 : BitVec 3).toNat + 1 ∧
    (weight 65535#16 7#3).toNat = 8388480 := by decide

theorem test_witness_FrameStartLatchesTheUnit : ∃ s : State, s.state = .idle ∧ s.base = 0xFFFF#16 :=
  ⟨{ booted with base := 0xFFFF#16 }, rfl, rfl⟩

theorem test_witness_FrameStartEqualsGoKeepingTheEnables :
    ∃ (s : State) (w : Word), s.state = .idle ∧ w.getLsbD 0 = true ∧ w.getLsbD 1 = s.ctrl.ieFrame ∧
      w.getLsbD 2 = s.ctrl.ieErr ∧ s.ctrl.ieErr = true :=
  ⟨{ booted with ctrl := ⟨false, true⟩ }, 5#32, by decide⟩

theorem test_witness_RowStepDrivesTheAddress : (at' .row 15#4 0#3 0#5).state = .row := by decide

/-- Both words written, one unwritten, none written. -/
theorem test_witness_ColStepDrivesTheColumn :
    (at' .col 15#4 7#3 31#5).state = .col ∧ topPixel (at' .col 15#4 7#3 31#5) = 511#10 ∧
      bottomPixel (at' .col 15#4 7#3 31#5) = 1023#10 ∧
      ((at' .col 0#4 0#3 0#5).storePixel 0#10 1#32 |>.storePixel 512#10 2#32).fb (topPixel (at' .col 0#4 0#3 0#5)) =
        some 1#32 ∧
      ((at' .col 0#4 0#3 0#5).storePixel 0#10 1#32 |>.storePixel 512#10 2#32).fb (bottomPixel (at' .col 0#4 0#3 0#5)) =
        some 2#32 ∧
      ((at' .col 0#4 0#3 0#5).storePixel 0#10 1#32).fb (bottomPixel (at' .col 0#4 0#3 0#5)) = none := by decide

theorem test_witness_ClkStepShiftsThePanel :
    (at' .clk 0#4 0#3 30#5).state = .clk ∧ (at' .clk 0#4 0#3 31#5).x = 31#5 ∧ (at' .clk 0#4 0#3 30#5).x ≠ 31#5 := by decide

theorem test_witness_LatStepLatchesThePanel : (at' .lat 3#4 7#3 31#5).state = .lat := by decide
theorem test_witness_EnonStepEnablesTheDisplay : (at' .enon 15#4 7#3 31#5).state = .enon := by decide

/-- The largest hold, with the display enabled and disabled, at the first and the last address. -/
theorem test_witness_HoldStepLightsForTheWeight :
    let s : State :=
      { at' .hold 15#4 7#3 31#5 with
          baseAct := 65535#16
          lines := { Lines.low.drive 15#4 with en := true } }
    s.state = .hold ∧ 8388480 = s.baseAct.toNat * 2 ^ s.p.toNat ∧ s.lines.en = true ∧ s.lines.address.toNat = 15 ∧
      (at' .hold 0#4 0#3 31#5).state = .hold ∧ (at' .hold 0#4 0#3 31#5).lines.en = false ∧
      (at' .hold 0#4 0#3 31#5).lines.address.toNat = 0 := by decide

theorem test_witness_EnoffStepBlanksAndAdvances :
    ((at' .enoff 0#4 6#3 31#5).state = .enoff ∧ (at' .enoff 0#4 6#3 31#5).p.toNat < 7) ∧
      ((at' .enoff 14#4 7#3 31#5).p.toNat = 7 ∧ (at' .enoff 14#4 7#3 31#5).s.toNat < 15) ∧
      (at' .enoff 15#4 7#3 31#5).p.toNat = 7 ∧ (at' .enoff 15#4 7#3 31#5).s.toNat = 15 := by decide

theorem test_witness_FendStepCompletesTheFrame :
    ∃ s : State, s.state = .fend ∧ s.frames = 0xFFFFFFFF#32 :=
  ⟨{ at' .fend 15#4 7#3 31#5 with frames := 0xFFFFFFFF#32 }, rfl, rfl⟩

theorem test_witness_MicroOperationsRunOnlyWhenNext :
    (Instr.lat 3#4 7#3).isEvent = true ∧ (at' .lat 3#4 7#3 31#5).engineNext = some (.lat 3#4 7#3) ∧
      (at' .lat 3#4 6#3 31#5).engineNext ≠ some (.lat 3#4 7#3) ∧ booted.engineNext ≠ some (.lat 3#4 7#3) ∧
      (booted.state = .idle ∧ booted.base = 1#16) ∧ ¬(booted.state = .idle ∧ booted.base = 2#16) := by
  decide

theorem test_witness_SequencerFollowsTheTransitionTable :
    (at' .enoff 15#4 7#3 31#5).state ≠ .idle ∧ (at' .clk 0#4 0#3 31#5).state ≠ .idle ∧ booted.state = .idle ∧
      (1#32 : Word).getLsbD 0 = true := by decide

theorem test_witness_HostStepsLeaveLinesPanelAndTime :
    ∃ t, (Instr.busErrRoLines 0#32).isEvent = false ∧ exec (.busErrRoLines 0#32) (at' .hold 0#4 0#3 31#5) = .next t :=
  ⟨_, rfl, rfl⟩

theorem test_witness_EngineStepsLeaveHostStateAndFramebuffer :
    (Instr.frameEnd 1#28).isEvent = true ∧ ∃ t, exec (.frameEnd 1#28) (at' .fend 15#4 7#3 31#5) = .next t :=
  ⟨rfl, exec_engineNext (by decide)⟩

/-- A hold, a step with a free duration, a step in no time, a host step that starts a frame, one that does not. -/
theorem test_witness_EachStepEmitsItsEventOnTime :
    (∃ t, exec (.hold 1#24) (at' .hold 0#4 0#3 31#5) = .next t) ∧
      (∃ t, exec (.addr 0#4) (at' .row 0#4 0#3 0#5) = .next t) ∧
      (∃ t, exec (.enOff 15#4 7#3) (at' .enoff 15#4 7#3 31#5) = .next t) ∧
      (∃ t, exec (.ctrlWr 1#32) booted = .next t ∧ t.state = .row) ∧
      ∃ t, exec (.ctrlWr 0#32) booted = .next t ∧ t.state = .idle :=
  ⟨exec_engineNext (by decide), exec_engineNext (by decide), exec_engineNext (by decide), ⟨_, rfl, rfl⟩, ⟨_, rfl, rfl⟩⟩

/-- Each flag is set by one step and cleared by another. -/
theorem test_witness_StatusFlagsChangeOnlyAsListed :
    seen (fun t => t.status.frameDone) (exec (.frameEnd 1#28) (at' .fend 15#4 7#3 31#5)) = some true ∧
      seen (fun t => t.status.scanWr) (exec (.fbgWr 0#10 0#32) (at' .fend 15#4 7#3 31#5)) = some true ∧
      seen (fun t => t.status.goIgn) (exec (.ctrlWr 1#32) (at' .row 0#4 0#3 0#5)) = some true ∧
      seen (fun t => t.status.busErr) (exec (.busErrRoErraddr 0#32) booted) = some true ∧
      seen State.statusWord (exec (.statusWr 0x1E#32) { booted with status := ⟨true, true, true, true⟩ }) =
        some 0#32 := by decide

/-- A step that changes each of the registers it names. -/
theorem test_witness_RegistersHaveOnlyTheirWriters :
    seen (fun t => (t.s, t.p)) (exec (.enOff 0#4 7#3) (at' .enoff 0#4 7#3 31#5)) = some (1#4, 0#3) ∧
      seen State.x (exec (.clk 0#4 0#3 0#5) (at' .clk 0#4 0#3 0#5)) = some 1#5 ∧
      seen State.baseAct (exec (.ctrlWr 1#32) { booted with base := 9#16 }) = some 9#16 ∧
      seen State.base (exec (.baseWr 9#32) booted) = some 9#16 ∧
      seen State.frames (exec (.frameEnd 1#28) (at' .fend 15#4 7#3 31#5)) = some 1#32 ∧
      seen State.errCause (exec (.busErrSizeReserved 0#14 .read) booted) = some 1#3 ∧
      seen (fun t => t.mem.length) (exec (.fbWr 0#10 0#32) booted) = some 4 ∧
      seen State.ctrl (exec (.ctrlWr 4#32) booted) = some ⟨false, true⟩ ∧
      seen (fun t => t.lines.address) (exec (.addr 9#4) (at' .row 9#4 0#3 0#5)) = some 9#4 ∧
      seen (fun t => t.lines.colours.topA) (exec (.color 0#4 0#3 0#5 1#6)
        ((at' .col 0#4 0#3 0#5).storePixel 0#10 1#32 |>.storePixel 512#10 0#32)) = some true ∧
      seen (fun t => t.lines.en) (exec (.enOn 0#4 0#3) (at' .enon 0#4 0#3 31#5)) = some true := by decide

theorem test_witness_FaultRecordOnlyGrows :
    ∃ s t : State, step s = .next t ∧ s.agenda.head? ≠ some .reset ∧ t.record = [⟨.uninitFbRead, .fbRd 0#10⟩] :=
  ⟨{ booted with agenda := [.host 0x10000#17 0#32] }, _, rfl, by decide, by decide⟩

theorem test_witness_EveryHostEngineAndResetTurnCompletes :
    ∃ s : State, (∀ w rest, s.agenda ≠ .event w :: rest) ∧ s.agenda = [.host 0#17 0#32, .engine, .reset] :=
  ⟨{ booted with agenda := [.host 0#17 0#32, .engine, .reset] }, by simp, rfl⟩

/-- Two framebuffers that differ in bits 31:24 of a word, and a column step that reads it. -/
theorem test_witness_IgnoredBitsNeverReachALine :
    let s : State := (at' .col 0#4 0#3 0#5).storePixel 0#10 0x01000001#32
    let m : Memory := (withPixel 0#10 0xFF000001#32).mem
    (∀ idx, (s.fb idx).map (fun w : Word => w.extractLsb' 0 24) =
      (State.fb { s with mem := m } idx).map (fun w : Word => w.extractLsb' 0 24)) ∧ s.mem ≠ m ∧
    (Instr.color 0#4 0#3 0#5 s.columnColours.bits).isEvent = true ∧
    ∃ t, exec (.color 0#4 0#3 0#5 s.columnColours.bits) s = .next t := by
  refine ⟨?_, by decide, rfl, ?_⟩
  · intro idx
    by_cases h : idx = 0#10
    · subst h; decide
    · show ((State.storePixel _ 0#10 _).fb idx).map _ = ((State.storePixel booted 0#10 _).fb idx).map _
      rw [State.fb_storePixel_other _ _ _ _ h, State.fb_storePixel_other _ _ _ _ h]
      rfl
  · exact exec_engineNext rfl

/-- A state of the invariant from which a step goes on, and one that no run reaches. -/
theorem test_witness_EveryStepKeepsTheInvariant :
    (∃ s t : State, s.Inv ∧ step s = .next t ∧ s.state = .hold) ∧ ∃ s t : State, s.Inv ∧ step s = .next t ∧ s.x = 9#5 := by
  refine ⟨⟨{ at' .hold 5#4 2#3 31#5 with
      lines := { Lines.low.drive 5#4 with en := true }
      mem := (withPixel 3#10 7#32).mem }, _, ?_, rfl, rfl⟩, ⟨at' .clk 0#4 0#3 9#5, _, ?_, rfl, rfl⟩⟩
  · exact ⟨by decide, by decide, by decide, by decide, by decide, by decide, by decide, fun e h => (by cases h),
      fun _ => ⟨rfl, fun e h => (by cases h)⟩⟩
  · exact ⟨by decide, by decide, by decide, by decide, by decide, by decide, by decide, fun e h => (by cases h),
      fun _ => ⟨rfl, fun e h => (by cases h)⟩⟩

theorem test_witness_HoldLastsExactlyTheWeight :
    ∃ (s : State) (d : Nat), s.agenda = [] ∧ s.state = .enon ∧ d = s.baseAct.toNat * 2 ^ s.p.toNat ∧ d = 8388480 :=
  ⟨{ at' .enon 0#4 7#3 31#5 with baseAct := 65535#16 }, 8388480, rfl, rfl, by decide, rfl⟩

theorem test_witness_PlanePassLoadsTheOutputRegister :
    ∃ s : State, s.agenda = [] ∧ s.state = .col ∧ s.x = 0#5 ∧ s.allWritten ∧ s.s = 15#4 ∧ s.p = 7#3 :=
  ⟨{ at' .col 15#4 7#3 0#5 with mem := filled 4096 0 }, rfl, rfl, rfl, fun idx => by rw [test_filled_fb _ rfl]; rfl, rfl, rfl⟩

theorem test_witness_FrameGivesEachPixelItsExactLight :
    ∃ s : State, s.agenda = [] ∧ position s = (.row, 0, 0, 0) ∧ s.allWritten ∧ ∀ idx, s.fb idx = some 0x55555555#32 :=
  ⟨{ at' .row 0#4 0#3 0#5 with mem := filled 4096 0 }, rfl, rfl, fun idx => by rw [test_filled_fb _ rfl]; rfl,
    test_filled_fb _ rfl⟩

theorem test_witness_BusAddressesRouteToTheWindow :
    Config.blockBase ≤ Config.blockBase + 0x3FFF ∧ Config.blockBase + 0x3FFF < Config.blockBase + 0x4000 ∧
      (0x3FFF#14).toNat = Config.blockBase + 0x3FFF - Config.blockBase :=
  ⟨by omega, by omega, by rw [Nat.add_sub_cancel_left]; rfl⟩

end Sys2Proof.Tests
end

section
/-!
PROOFS. Whose step is next and what it runs (R12, R93, R97), that no host, engine or reset turn stops the machine (R229),
and what each step adds to the trace and to `T` (R41, R97).
-/
namespace Sys2Proof.Machine

/-! ### What the engine's turn finds -/

/-- The engine has no next step exactly in `IDLE` (R222, R344). -/
theorem State.engineNext_eq_none_iff (s : State) : s.engineNext = none ↔ s.state = .idle := by
  unfold State.engineNext
  cases s.state <;> simp

/-- The turns to come play no part in which micro-operation is next (R23). -/
@[simp] theorem State.engineNext_agenda (s : State) (turns : List Turn) :
    State.engineNext { s with agenda := turns } = s.engineNext := rfl

theorem State.fetchEngine_of_engineNext {s : State} {i : Instr} (h : s.engineNext = some i) : s.fetchEngine = .run i s := by
  simp [State.fetchEngine, h]

theorem State.fetchEngine_of_idle {s : State} (h : s.state = .idle) : s.fetchEngine = .quiet s := by
  simp [State.fetchEngine, (State.engineNext_eq_none_iff s).2 h]

/-! ### What a step runs, by what it fetches and by the turn at the head of the agenda (R12) -/

theorem step_of_fetch_run {s s' : State} {i : Instr} (h : s.fetch = .run i s') : step s = exec i s' := by
  simp [step, h]

theorem step_of_fetch_quiet {s s' : State} (h : s.fetch = .quiet s') : step s = .next s' := by
  simp [step, h]

theorem State.fetch_of_empty {s : State} (h : s.agenda = []) : s.fetch = s.fetchEngine := by
  simp [State.fetch, h]

theorem State.fetch_of_engine {s : State} {rest : List Turn} (h : s.agenda = .engine :: rest) :
    s.fetch = State.fetchEngine { s with agenda := rest } := by
  simp [State.fetch, h]

theorem step_of_host {s : State} {key : Key} {wdata : Word} {rest : List Turn} (h : s.agenda = .host key wdata :: rest) :
    step s = exec (decodeKey key wdata) { s with agenda := rest } :=
  step_of_fetch_run (by simp [State.fetch, h])

theorem step_of_event {s : State} {word : Word} {rest : List Turn} {i : Instr} (h : s.agenda = .event word :: rest)
    (hd : decodeEvent word = .ok i) : step s = exec i { s with agenda := rest } :=
  step_of_fetch_run (by simp [State.fetch, h, hd])

theorem step_of_reserved_event {s : State} {word : Word} {rest : List Turn} {e : DecodeError}
    (h : s.agenda = .event word :: rest) (hd : decodeEvent word = .reject e) :
    step s = .refused (.reservedEvent word) := by
  simp [step, State.fetch, h, hd]

theorem step_of_reset {s : State} {rest : List Turn} (h : s.agenda = .reset :: rest) :
    step s = .next (State.resetAction { s with agenda := rest }) := by
  simp [step, State.fetch, h]

/-- Settles O3: each clause is what the fetch finds at the head of the agenda. -/
theorem stepRunsTheNextTurn : Obligations.StepRunsTheNextTurn := by
  refine ⟨fun s key wdata rest h => step_of_host h, fun s word rest i h hd => step_of_event h hd,
    fun s word rest e h hd => step_of_reserved_event h hd, fun s rest i h hi => ?_, fun s i h hi => ?_,
    fun s rest h hs => ?_, fun s h hs => ?_⟩
  · exact step_of_fetch_run ((State.fetch_of_engine h).trans (State.fetchEngine_of_engineNext hi))
  · exact step_of_fetch_run ((State.fetch_of_empty h).trans (State.fetchEngine_of_engineNext hi))
  · exact step_of_fetch_quiet ((State.fetch_of_engine h).trans (State.fetchEngine_of_idle hs))
  · exact step_of_fetch_quiet ((State.fetch_of_empty h).trans (State.fetchEngine_of_idle hs))

/-! ### No host, engine or reset turn stops the machine (R229) -/

/-- Every row of R94 and R95 builds a host transaction. -/
theorem keyRows_build_isEvent (key : Key) (wdata : Word) :
    ∀ row ∈ legalKeyRows ++ errorKeyRows, (row.build key wdata).isEvent = false := by
  simp [legalKeyRows, errorKeyRows, Instr.isEvent]

/-- A key decodes to a host transaction, never to an event (R93). -/
@[simp] theorem decodeKey_isEvent (key : Key) (wdata : Word) : (decodeKey key wdata).isEvent = false := by
  unfold decodeKey
  split
  · rename_i row hrow
    exact keyRows_build_isEvent key wdata row (List.mem_of_find?_eq_some hrow)
  · rfl

/-- Every host transaction completes in every state, also when it is refused by a bus error (R229, R291). -/
theorem exec_host_completes {i : Instr} (he : i.isEvent = false) (s : State) : ∃ t, exec i s = .next t := by
  cases i <;> simp only [Instr.isEvent, Bool.true_eq_false] at he
  all_goals exact ⟨_, rfl⟩

/-- A step that gives the engine its turn completes: its next micro-operation does, and `IDLE` is quiet (R228, R344). -/
theorem step_completes_of_fetchEngine {s s' : State} (h : s.fetch = s'.fetchEngine) : ∃ t, step s = .next t := by
  cases hi : s'.engineNext with
  | none => exact ⟨s', step_of_fetch_quiet (h.trans (State.fetchEngine_of_idle ((State.engineNext_eq_none_iff s').1 hi)))⟩
  | some i =>
    rw [step_of_fetch_run (h.trans (State.fetchEngine_of_engineNext hi))]
    exact exec_engineNext hi

/-- Settles O52, by the turn at the head of the agenda. -/
theorem everyHostEngineAndResetTurnCompletes : Obligations.EveryHostEngineAndResetTurnCompletes := by
  intro s noEvent
  cases ha : s.agenda with
  | nil => exact step_completes_of_fetchEngine (State.fetch_of_empty ha)
  | cons turn rest =>
    cases turn with
    | host key wdata =>
      rw [step_of_host ha]
      exact exec_host_completes (decodeKey_isEvent key wdata) _
    | event word => exact absurd ha (noEvent word rest)
    | engine => exact step_completes_of_fetchEngine (State.fetch_of_engine ha)
    | reset => exact ⟨_, step_of_reset ha⟩

/-! ### What each engine step adds to the trace and to `T` (R41, R97) -/

@[simp] theorem State.rowStep_trace (s : State) : s.rowStep.trace = s.trace ++ [⟨encodeEvent (.addr s.s), s.t⟩] := rfl
@[simp] theorem State.rowStep_t (s : State) : s.rowStep.t = s.t + Config.stepDuration s.draws := rfl

@[simp] theorem State.colStep_trace (s : State) :
    s.colStep.trace = s.trace ++ [⟨encodeEvent (.color s.s s.p s.x s.columnColours.bits), s.t⟩] := by
  unfold State.colStep
  cases s.columnWritten <;> rfl
@[simp] theorem State.colStep_t (s : State) : s.colStep.t = s.t + Config.stepDuration s.draws := by
  unfold State.colStep
  cases s.columnWritten <;> rfl

@[simp] theorem State.clkStep_trace (s : State) :
    s.clkStep.trace = s.trace ++ [⟨encodeEvent (.clk s.s s.p s.x), s.t⟩] := by
  unfold State.clkStep
  split <;> rfl
@[simp] theorem State.clkStep_t (s : State) : s.clkStep.t = s.t + Config.stepDuration s.draws := by
  unfold State.clkStep
  split <;> rfl

@[simp] theorem State.latStep_trace (s : State) : s.latStep.trace = s.trace ++ [⟨encodeEvent (.lat s.s s.p), s.t⟩] := rfl
@[simp] theorem State.latStep_t (s : State) : s.latStep.t = s.t + Config.stepDuration s.draws := rfl

@[simp] theorem State.enonStep_trace (s : State) : s.enonStep.trace = s.trace ++ [⟨encodeEvent (.enOn s.s s.p), s.t⟩] := rfl
@[simp] theorem State.enonStep_t (s : State) : s.enonStep.t = s.t := rfl

@[simp] theorem State.holdStep_trace (s : State) :
    s.holdStep.trace =
      s.trace ++ [⟨encodeEvent (.hold (weight s.baseAct s.p)), s.t + (weight s.baseAct s.p).toNat⟩] := by
  simp [State.holdStep]
@[simp] theorem State.holdStep_t (s : State) : s.holdStep.t = s.t + (weight s.baseAct s.p).toNat := by
  simp [State.holdStep]

@[simp] theorem State.enoffStep_trace (s : State) :
    s.enoffStep.trace = s.trace ++ [⟨encodeEvent (.enOff s.s s.p), s.t⟩] := by
  unfold State.enoffStep
  split_ifs <;> rfl
@[simp] theorem State.enoffStep_t (s : State) : s.enoffStep.t = s.t := by
  unfold State.enoffStep
  split_ifs <;> rfl

@[simp] theorem State.fendStep_trace (s : State) :
    s.fendStep.trace = s.trace ++ [⟨encodeEvent (.frameEnd ((s.frames + 1#32).extractLsb' 0 28)), s.t⟩] := rfl
@[simp] theorem State.fendStep_t (s : State) : s.fendStep.t = s.t + Config.stepDuration s.draws := rfl

/-! ### What a host transaction adds to the trace (R211, R251) -/

@[simp] theorem readPixel_trace (i : Instr) (idx : BitVec 10) (s : State) : (readPixel i idx s).trace = s.trace := by
  rw [readPixel_frame]

@[simp] theorem writePixel_trace (i : Instr) (idx : BitVec 10) (w : Word) (s : State) :
    (writePixel i idx w s).trace = s.trace := by
  rw [writePixel_eq]

/-- `CTRL_WR` emits nothing, unless it starts a frame in `IDLE` (R251). -/
theorem execCtrlWr_trace {w : Word} {s t : State} (h : execCtrlWr w s = .next t) :
    t.trace = s.trace ∨ (s.state = .idle ∧ t.state = .row ∧
      t.trace = s.trace ++ [⟨encodeEvent (.frameStart s.base), s.t⟩]) := by
  rw [execCtrlWr_eq] at h
  injection h with h
  subst h
  split_ifs with go idle
  · exact .inr ⟨idle, by simp⟩
  · exact .inl rfl
  · exact .inl rfl

/-- Settles O48, by the nine events and the shapes of a host transaction. -/
theorem eachStepEmitsItsEventOnTime : Obligations.EachStepEmitsItsEventOnTime := by
  refine ⟨fun i s t he h => ?_, fun i s t he h => ?_⟩
  · rcases exec_event_cases he h with ⟨rfl, -, rfl⟩ | ⟨rfl, -, rfl⟩ | ⟨rfl, -, rfl⟩ | ⟨rfl, -, rfl⟩ | ⟨rfl, -, rfl⟩ |
      ⟨rfl, -, rfl⟩ | ⟨rfl, -, rfl⟩ | ⟨rfl, -, rfl⟩ | ⟨rfl, -, rfl⟩
    · exact ⟨s.t, s.startFrame_trace, rfl, s.startFrame_t⟩
    · exact ⟨s.t, s.rowStep_trace, rfl, by simp⟩
    · exact ⟨s.t, s.colStep_trace, rfl, by simp⟩
    · exact ⟨s.t, s.clkStep_trace, rfl, by simp⟩
    · exact ⟨s.t, s.latStep_trace, rfl, by simp⟩
    · exact ⟨s.t, s.enonStep_trace, rfl, s.enonStep_t⟩
    · exact ⟨_, s.holdStep_trace, rfl, s.holdStep_t⟩
    · exact ⟨s.t, s.enoffStep_trace, rfl, s.enoffStep_t⟩
    · exact ⟨s.t, s.fendStep_trace, rfl, by simp⟩
  · rcases exec_host_cases he h with ⟨idx, -, rfl⟩ | ⟨idx, w, v, -, rfl⟩ | ⟨-, -, r, rfl⟩ | ⟨c, -, rfl⟩ |
      ⟨w, -, rfl⟩ | ⟨w, -, rfl⟩ | ⟨w, -, hw⟩
    · exact .inl (readPixel_trace i idx s)
    · exact .inl (writePixel_trace i idx v s)
    · exact .inl (s.respond_trace _)
    · exact .inl (s.raiseBusError_trace c i)
    · exact .inl (State.acknowledge_trace _)
    · exact .inl (State.acknowledge_trace _)
    · exact execCtrlWr_trace hw

end Sys2Proof.Machine
end

section
/-!
PROOFS. Every event word the block emits decodes to the micro-operation that emitted it (R96, R97, R99).
-/
namespace Sys2Proof

/-! ### The rows of R97 are told apart by `KIND` -/

/-- Row `k` of R97 looks at all of `KIND` and asks for the value `k + 1`. -/
theorem eventRows_kind : ∀ k : Fin eventRows.length,
    eventKind eventRows[k].mask = BitVec.allOnes 4 ∧ eventKind eventRows[k].pattern = BitVec.ofNat 4 (k.val + 1) := by
  decide

theorem eventKind_of_takes {k : Fin eventRows.length} {w : Word} (h : eventRows[k].takes w = true) :
    eventKind w = BitVec.ofNat 4 (k.val + 1) := by
  obtain ⟨hmask, hpattern⟩ := eventRows_kind k
  calc eventKind w = eventKind w &&& eventKind eventRows[k].mask := by rw [hmask, BitVec.and_allOnes]
    _ = eventKind (w &&& eventRows[k].mask) := BitVec.extractLsb'_and.symm
    _ = eventKind eventRows[k].pattern := congrArg eventKind (beq_iff_eq.1 h)
    _ = BitVec.ofNat 4 (k.val + 1) := hpattern

/-- At most one row takes a word. -/
theorem eventRows_takes_unique {j k : Fin eventRows.length} {w : Word} (hj : eventRows[j].takes w = true)
    (hk : eventRows[k].takes w = true) : j = k := by
  have hkind := congrArg BitVec.toNat ((eventKind_of_takes hj).symm.trans (eventKind_of_takes hk))
  have hj9 : j.val < 9 := j.isLt
  have hk9 : k.val < 9 := k.isLt
  rw [BitVec.toNat_ofNat, BitVec.toNat_ofNat] at hkind
  exact Fin.ext (by omega)

/-- The row that takes a word decodes it. -/
theorem decodeEvent_of_takes {k : Fin eventRows.length} {w : Word} (h : eventRows[k].takes w = true) :
    decodeEvent w = .ok (eventRows[k].build w) := by
  have found : eventRows.find? (fun row => row.takes w) = some eventRows[k] := by
    refine List.find?_eq_some_iff_getElem.2 ⟨h, k.val, k.isLt, rfl, fun j hj => ?_⟩
    have other : ¬ eventRows[j].takes w = true := fun hjw =>
      absurd (congrArg Fin.val (eventRows_takes_unique (j := ⟨j, hj.trans k.isLt⟩) hjw h)) (Nat.ne_of_lt hj)
    simpa using other
  simp only [decodeEvent, found]

/-! ### The fields of an encoded event -/

section
variable (kind row : BitVec 4) (plane : BitVec 3) (col : BitVec 5) (low : BitVec 8)

@[simp] theorem eventRow_scanEvent : eventRow (scanEvent kind row plane col low) = row := by
  apply BitVec.eq_of_toNat_eq
  rw [eventRow, BitVec.extractLsb'_toNat, scanEvent_toNat, Nat.shiftRight_eq_div_pow]
  omega

@[simp] theorem eventPlane_scanEvent : eventPlane (scanEvent kind row plane col low) = plane := by
  apply BitVec.eq_of_toNat_eq
  rw [eventPlane, BitVec.extractLsb'_toNat, scanEvent_toNat, Nat.shiftRight_eq_div_pow]
  omega

@[simp] theorem eventCol_scanEvent : eventCol (scanEvent kind row plane col low) = col := by
  apply BitVec.eq_of_toNat_eq
  rw [eventCol, BitVec.extractLsb'_toNat, scanEvent_toNat, Nat.shiftRight_eq_div_pow]
  omega

@[simp] theorem lines6_scanEvent (lines6 : BitVec 6) :
    (scanEvent kind row plane col (0#2 ++ lines6)).extractLsb' 0 6 = lines6 := by
  apply BitVec.eq_of_toNat_eq
  rw [BitVec.extractLsb'_toNat, scanEvent_toNat, Nat.shiftRight_eq_div_pow, toNat_append_add]
  omega

end

/-! ### Decoding what was encoded -/

/-- An event whose word lies in row `k`, and from whose word that row builds it back, decodes to itself. -/
theorem decodeEvent_encodeEvent_of_row {i : Instr} (k : Fin eventRows.length) (he : i.isEvent = true)
    (hwf : i.wellFormed = true) (hmatch : Laws.RowMatch.Statement i)
    (hrow : Laws.RowMatch.tableRow i = (eventRows[k].mask, eventRows[k].pattern))
    (hbuild : eventRows[k].build (encodeEvent i) = i) : decodeEvent (encodeEvent i) = .ok i := by
  have hword := hmatch hwf
  rw [hrow, encodeWord, if_pos he] at hword
  have taken : eventRows[k].takes (encodeEvent i) = true := beq_iff_eq.2 hword
  rw [decodeEvent_of_takes taken, hbuild]

/-- A micro-operation's event word decodes to the micro-operation (R97, R99). -/
theorem decodeEvent_encodeEvent {i : Instr} (he : i.isEvent = true) : decodeEvent (encodeEvent i) = .ok i := by
  cases i <;> simp only [Instr.isEvent, Bool.false_eq_true] at he
  case frameStart b =>
    exact decodeEvent_encodeEvent_of_row ⟨0, by decide⟩ rfl rfl (Laws.RowMatch.frameStart b) rfl
      (congrArg Instr.frameStart BitVec.extractLsb'_append_eq_right)
  case addr r =>
    exact decodeEvent_encodeEvent_of_row ⟨1, by decide⟩ rfl rfl (Laws.RowMatch.addr r) rfl
      (congrArg Instr.addr BitVec.extractLsb'_append_eq_right)
  case color r p c l =>
    exact decodeEvent_encodeEvent_of_row ⟨2, by decide⟩ rfl rfl (Laws.RowMatch.color r p c l) rfl
      (by simp [eventRows, encodeEvent])
  case clk r p c =>
    exact decodeEvent_encodeEvent_of_row ⟨3, by decide⟩ rfl rfl (Laws.RowMatch.clk r p c) rfl
      (by simp [eventRows, encodeEvent])
  case lat r p =>
    exact decodeEvent_encodeEvent_of_row ⟨4, by decide⟩ rfl rfl (Laws.RowMatch.lat r p) rfl
      (by simp [eventRows, encodeEvent])
  case enOn r p =>
    exact decodeEvent_encodeEvent_of_row ⟨5, by decide⟩ rfl rfl (Laws.RowMatch.enOn r p) rfl
      (by simp [eventRows, encodeEvent])
  case hold d =>
    exact decodeEvent_encodeEvent_of_row ⟨6, by decide⟩ rfl rfl (Laws.RowMatch.hold d) rfl
      (congrArg Instr.hold BitVec.extractLsb'_append_eq_right)
  case enOff r p =>
    exact decodeEvent_encodeEvent_of_row ⟨7, by decide⟩ rfl rfl (Laws.RowMatch.enOff r p) rfl
      (by simp [eventRows, encodeEvent])
  case frameEnd n =>
    exact decodeEvent_encodeEvent_of_row ⟨8, by decide⟩ rfl rfl (Laws.RowMatch.frameEnd n) rfl
      (congrArg Instr.frameEnd BitVec.extractLsb'_append_eq_right)

end Sys2Proof
end

section
/-!
PROOFS. What each engine step changes, as one record update; a field that the update does not name is unchanged.
-/
namespace Sys2Proof.Machine

/-- The `ROW` step (R180). -/
theorem State.rowStep_eq (s : State) : s.rowStep =
    { s with
      state := .col
      lines := s.lines.drive s.s
      t := s.t + Config.stepDuration s.draws
      trace := s.trace ++ [⟨encodeEvent (.addr s.s), s.t⟩]
      draws := s.draws + 1 } := rfl

/-- The `COL` step (R190, R297). -/
theorem State.colStep_eq (s : State) : s.colStep =
    { s with
      state := .clk
      lines := { s.lines with colours := s.columnColours }
      t := s.t + Config.stepDuration s.draws
      trace := s.trace ++ [⟨encodeEvent (.color s.s s.p s.x s.columnColours.bits), s.t⟩]
      record := if s.columnWritten then s.record
        else s.record ++ [⟨.uninitFbRead, .color s.s s.p s.x s.columnColours.bits⟩]
      draws := s.draws + 1 } := by
  unfold State.colStep
  split <;> rfl

/-- The `CLK` step (R194). -/
theorem State.clkStep_eq (s : State) : s.clkStep =
    { s with
      state := if s.x = 31#5 then .lat else .col
      x := if s.x = 31#5 then s.x else s.x + 1#5
      lines := { s.lines with clk := false }
      shiftReg := shiftIn s.shiftReg s.lines.colours
      t := s.t + Config.stepDuration s.draws
      trace := s.trace ++ [⟨encodeEvent (.clk s.s s.p s.x), s.t⟩]
      draws := s.draws + 1 } := by
  unfold State.clkStep
  split <;> rfl

/-- The `LAT` step (R214). -/
theorem State.latStep_eq (s : State) : s.latStep =
    { s with
      state := .enon
      lines := { s.lines with lat := false }
      outReg := s.shiftReg
      t := s.t + Config.stepDuration s.draws
      trace := s.trace ++ [⟨encodeEvent (.lat s.s s.p), s.t⟩]
      draws := s.draws + 1 } := rfl

/-- The `ENON` step (R215). -/
theorem State.enonStep_eq (s : State) : s.enonStep =
    { s with
      state := .hold
      lines := { s.lines with en := true }
      trace := s.trace ++ [⟨encodeEvent (.enOn s.s s.p), s.t⟩]
      draws := s.draws + 1 } := rfl

/-- The `HOLD` step: the light and the time come before the event (R216, R322). -/
theorem State.holdStep_eq (s : State) : s.holdStep =
    { s with
      state := .enoff
      on := (s.light (weight s.baseAct s.p).toNat).on
      t := s.t + (weight s.baseAct s.p).toNat
      trace := s.trace ++ [⟨encodeEvent (.hold (weight s.baseAct s.p)), s.t + (weight s.baseAct s.p).toNat⟩]
      draws := s.draws + 1 } := by
  unfold State.holdStep State.light
  split <;> rfl

/-- The `ENOFF` step (R219): all but the position it moves to. -/
theorem State.enoffStep_eq (s : State) : s.enoffStep =
    { s with
      state := s.enoffStep.state
      s := s.enoffStep.s
      p := s.enoffStep.p
      x := s.enoffStep.x
      lines := { s.lines with en := false }
      trace := s.trace ++ [⟨encodeEvent (.enOff s.s s.p), s.t⟩]
      draws := s.draws + 1 } := by
  unfold State.enoffStep
  split_ifs <;> rfl

/-- The `FEND` step (R220). -/
theorem State.fendStep_eq (s : State) : s.fendStep =
    { s with
      state := .idle
      frames := s.frames + 1#32
      status := { s.status with frameDone := true }
      t := s.t + Config.stepDuration s.draws
      trace := s.trace ++ [⟨encodeEvent (.frameEnd ((s.frames + 1#32).extractLsb' 0 28)), s.t⟩]
      draws := s.draws + 1 } := rfl

end Sys2Proof.Machine
end

section
/-!
PROOFS. The invariant of the block: it holds at reset and every step keeps it. Each step is a move of the sequencer, an
event and the passing of time; each of the three keeps the invariant for a reason of its own.
-/
namespace Sys2Proof.Machine

/-- Settles O54, part by part. -/
theorem invariantHoldsAtReset : Obligations.InvariantHoldsAtReset where
  memory := Memory.wf_reset
  blanking := by decide
  pulses := ⟨rfl, rfl⟩
  units := ⟨Config.baseReset_ne_zero, Config.baseReset_ne_zero⟩
  address := .inr (by decide)
  counters := by decide
  cause := by decide
  trace := fun _ he => absurd he List.not_mem_nil
  errors := fun _ => ⟨rfl, fun _ he => absurd he List.not_mem_nil⟩

/-! ### What the invariant's parts rest on -/

/-- `BASE_WR` never stores 0 (R254, V9). -/
theorem baseOfData_ne_zero (wdata : Word) : baseOfData wdata ≠ 0#16 := by
  unfold baseOfData
  split
  · decide
  · assumption

/-- Driving `s` makes the address lines show `s` (R180, R181). -/
@[simp] theorem Lines.address_drive (l : Lines) (s : BitVec 4) : (l.drive s).address = s := by
  revert s
  simp only [Lines.drive, Lines.address]
  decide

/-- The cause of a refused transaction is one of the four of R290. -/
theorem busErrorCause_range {i : Instr} {c : BitVec 3} (h : busErrorCause i = some c) : c ≠ 0#3 ∧ c.toNat ≤ 4 := by
  cases i <;> simp only [busErrorCause, Option.some.injEq, reduceCtorEq] at h <;> subst h <;> decide

/-- The trace stays legal when a micro-operation emits its event (R99). -/
theorem State.traceLegal_append {s t : State} {i : Instr} {stamp : Nat} (h : s.traceLegal) (he : i.isEvent = true)
    (ht : t.trace = s.trace ++ [⟨encodeEvent i, stamp⟩]) : t.traceLegal := by
  intro e hmem
  rw [ht, List.mem_append, List.mem_singleton] at hmem
  rcases hmem with hold | rfl
  · exact h e hold
  · exact ⟨i, decodeEvent_encodeEvent he, rfl⟩

/-! ### The shared operations keep the invariant -/

namespace State.Inv
variable {s : State}

theorem withAgenda (h : s.Inv) (turns : List Turn) : State.Inv { s with agenda := turns } := { h with }
theorem nextDraw (h : s.Inv) : s.nextDraw.Inv := { h with }
theorem advance (h : s.Inv) (d : Nat) : (s.advance d).Inv := { h with }
theorem advanceDelta (h : s.Inv) : s.advanceDelta.Inv := { h with }
theorem respond (h : s.Inv) (r : Response) : (s.respond r).Inv := { h with }
theorem acknowledge (h : s.Inv) : s.acknowledge.Inv := { h with }
theorem withCtrl (h : s.Inv) (c : Ctrl) : State.Inv { s with ctrl := c } := { h with }
theorem withStatus (h : s.Inv) (f : Status) : State.Inv { s with status := f } := { h with }
theorem withFrames (h : s.Inv) (n : BitVec 32) : State.Inv { s with frames := n } := { h with }

/-- The panel plays no part in it. -/
theorem withPanel (h : s.Inv) (sr out : Vector Colours 32) (on : Vector (Vector OnTime 32) 32) :
    State.Inv { s with shiftReg := sr, outReg := out, on := on } := { h with }

theorem withBase (h : s.Inv) {b : BitVec 16} (hb : b ≠ 0#16) : State.Inv { s with base := b } :=
  { h with units := ⟨hb, h.units.2⟩ }

theorem latchBase (h : s.Inv) : State.Inv { s with baseAct := s.base } := { h with units := ⟨h.units.1, h.units.1⟩ }

theorem storePixel (h : s.Inv) (idx : BitVec 10) (w : Word) : (s.storePixel idx w).Inv :=
  { h with memory := Memory.wf_writeWord s.mem idx w h.memory }

theorem emit (h : s.Inv) {i : Instr} (he : i.isEvent = true) : (s.emit i).Inv :=
  { h with trace := State.traceLegal_append h.trace he (s.emit_trace i) }

/-- A record entry that is no bus error leaves the error registers in agreement with the record (R298). -/
theorem note (h : s.Inv) {kind : RecordKind} (hk : ∀ code, kind ≠ .busError code) (i : Instr) :
    (s.note kind i).Inv :=
  { h with
    errors := fun hc => ⟨(h.errors hc).1, fun e he code => by
      rw [State.note_record, List.mem_append, List.mem_singleton] at he
      rcases he with hold | rfl
      · exact (h.errors hc).2 e hold code
      · exact hk code⟩ }

theorem raiseBusError (h : s.Inv) {c : BitVec 3} (hne : c ≠ 0#3) (hle : c.toNat ≤ 4) (i : Instr) :
    (s.raiseBusError c i).Inv :=
  { h with
    cause := hle
    errors := fun hc => absurd hc hne }

/-- A move of the sequencer to position `q` with the lines `l`, which must be blanked, at rest, stable and placed there. -/
theorem move (h : s.Inv) {q : SeqState} {row : BitVec 4} {plane : BitVec 3} {col : BitVec 5} {l : Lines}
    (blanked : l.en = true ↔ q = .hold ∨ q = .enoff) (rest : l.clk = false ∧ l.lat = false)
    (stable : q = .row ∨ l.address = row)
    (placed : State.countersPlaced { s with state := q, s := row, p := plane, x := col, lines := l } = true) :
    State.Inv { s with state := q, s := row, p := plane, x := col, lines := l } :=
  { h with
    blanking := blanked
    pulses := rest
    address := stable
    counters := placed }

/-! ### What the invariant says at a position -/

theorem blanked_of_state (h : s.Inv) (hhold : s.state ≠ .hold) (hoff : s.state ≠ .enoff) : s.lines.en = false := by
  rw [← Bool.not_eq_true]
  exact fun hen => (h.blanking.1 hen).elim hhold hoff

theorem address_of_state (h : s.Inv) (hrow : s.state ≠ .row) : s.lines.address = s.s := h.address.resolve_left hrow

/-- From `LAT` to `ENOFF` the column counter stands at the last column (R222). -/
theorem last_column (h : s.Inv) (hs : s.state = .lat ∨ s.state = .enon ∨ s.state = .hold ∨ s.state = .enoff) :
    s.x = 31#5 := by
  have placed := h.counters
  unfold State.countersPlaced at placed
  rcases hs with hs | hs | hs | hs <;> simpa [hs] using placed

end State.Inv

/-! ### The engine's steps keep it -/

section
variable {s : State} (h : s.Inv)
include h

theorem State.Inv.startFrame (hs : s.state = .idle) : s.startFrame.Inv := by
  have dark : s.lines.en = false := h.blanked_of_state (by simp [hs]) (by simp [hs])
  exact (h.latchBase.move (q := .row) (row := 0#4) (plane := 0#3) (col := 0#5) (l := s.lines) (by simp [dark])
    h.pulses (.inl rfl) rfl).emit rfl

theorem State.Inv.rowStep (hs : s.state = .row) : s.rowStep.Inv := by
  have dark : s.lines.en = false := h.blanked_of_state (by simp [hs]) (by simp [hs])
  exact ((h.move (q := .col) (row := s.s) (plane := s.p) (col := s.x) (l := s.lines.drive s.s)
    (by simp [Lines.drive, dark]) h.pulses (.inr (Lines.address_drive _ _)) rfl).emit (i := .addr s.s) rfl).advanceDelta

/-- Driving the colour lines in `COL` moves on to `CLK`. -/
theorem State.Inv.driveColours (hs : s.state = .col) (c : Colours) :
    State.Inv { s with lines := { s.lines with colours := c }, state := .clk } := by
  have dark : s.lines.en = false := h.blanked_of_state (by simp [hs]) (by simp [hs])
  have stable : s.lines.address = s.s := h.address_of_state (by simp [hs])
  exact h.move (q := .clk) (row := s.s) (plane := s.p) (col := s.x) (l := { s.lines with colours := c })
    (by simp [dark]) h.pulses (.inr stable) rfl

theorem State.Inv.colStep (hs : s.state = .col) : s.colStep.Inv := by
  unfold State.colStep
  split
  · exact ((h.driveColours hs _).emit rfl).advanceDelta
  · exact (((h.note (by simp) _).driveColours hs _).emit rfl).advanceDelta

theorem State.Inv.clkStep (hs : s.state = .clk) : s.clkStep.Inv := by
  have dark : s.lines.en = false := h.blanked_of_state (by simp [hs]) (by simp [hs])
  have stable : s.lines.address = s.s := h.address_of_state (by simp [hs])
  have pulsed := h.withPanel (shiftIn s.shiftReg s.lines.colours) s.outReg s.on
  unfold State.clkStep
  split
  · rename_i hx
    exact ((pulsed.move (q := .lat) (row := s.s) (plane := s.p) (col := s.x) (l := { s.lines with clk := false })
      (by simp [dark]) ⟨rfl, h.pulses.2⟩ (.inr stable) (by simp [State.countersPlaced, hx])).emit
      (i := .clk s.s s.p s.x) rfl).advanceDelta
  · exact ((pulsed.move (q := .col) (row := s.s) (plane := s.p) (col := s.x + 1#5) (l := { s.lines with clk := false })
      (by simp [dark]) ⟨rfl, h.pulses.2⟩ (.inr stable) rfl).emit
      (i := .clk s.s s.p s.x) rfl).advanceDelta

theorem State.Inv.latStep (hs : s.state = .lat) : s.latStep.Inv := by
  have dark : s.lines.en = false := h.blanked_of_state (by simp [hs]) (by simp [hs])
  have stable : s.lines.address = s.s := h.address_of_state (by simp [hs])
  have last : s.x = 31#5 := h.last_column (by simp [hs])
  exact (((h.withPanel s.shiftReg s.shiftReg s.on).move (q := .enon) (row := s.s) (plane := s.p) (col := s.x)
    (l := { s.lines with lat := false }) (by simp [dark]) ⟨h.pulses.1, rfl⟩ (.inr stable)
    (by simp [State.countersPlaced, last])).emit (i := .lat s.s s.p) rfl).advanceDelta

theorem State.Inv.enonStep (hs : s.state = .enon) : s.enonStep.Inv := by
  have stable : s.lines.address = s.s := h.address_of_state (by simp [hs])
  have last : s.x = 31#5 := h.last_column (by simp [hs])
  exact ((h.move (q := .hold) (row := s.s) (plane := s.p) (col := s.x) (l := { s.lines with en := true })
    (by simp) h.pulses (.inr stable) (by simp [State.countersPlaced, last])).emit (i := .enOn s.s s.p) rfl).nextDraw

theorem State.Inv.holdStep (hs : s.state = .hold) : s.holdStep.Inv := by
  have lit : s.lines.en = true := h.blanking.2 (.inl hs)
  have stable : s.lines.address = s.s := h.address_of_state (by simp [hs])
  have last : s.x = 31#5 := h.last_column (by simp [hs])
  rw [State.holdStep_eq]
  exact ((((h.withPanel s.shiftReg s.outReg _).move (q := .enoff) (row := s.s) (plane := s.p) (col := s.x)
    (l := s.lines) (by simp [lit]) h.pulses (.inr stable) (by simp [State.countersPlaced, last])).advance _).emit
    (i := .hold _) rfl).nextDraw

theorem State.Inv.enoffStep (hs : s.state = .enoff) : s.enoffStep.Inv := by
  have stable : s.lines.address = s.s := h.address_of_state (by simp [hs])
  have last : s.x = 31#5 := h.last_column (by simp [hs])
  unfold State.enoffStep
  split_ifs with hp hrow
  · exact ((h.move (q := .col) (row := s.s) (plane := s.p + 1#3) (col := 0#5) (l := { s.lines with en := false })
      (by simp) h.pulses (.inr stable) rfl).emit (i := .enOff s.s s.p) rfl).nextDraw
  · exact ((h.move (q := .row) (row := s.s + 1#4) (plane := 0#3) (col := 0#5) (l := { s.lines with en := false })
      (by simp) h.pulses (.inl rfl) rfl).emit (i := .enOff s.s s.p) rfl).nextDraw
  · rw [not_not] at hp hrow
    exact ((h.move (q := .fend) (row := s.s) (plane := s.p) (col := s.x) (l := { s.lines with en := false })
      (by simp) h.pulses (.inr stable) (by simp [State.countersPlaced, hp, hrow, last])).emit
      (i := .enOff s.s s.p) rfl).nextDraw

theorem State.Inv.fendStep (hs : s.state = .fend) : s.fendStep.Inv := by
  have dark : s.lines.en = false := h.blanked_of_state (by simp [hs]) (by simp [hs])
  have stable : s.lines.address = s.s := h.address_of_state (by simp [hs])
  have ended : s.countersPlaced = true := h.counters
  exact ((((h.withFrames (s.frames + 1#32)).withStatus { s.status with frameDone := true }).move (q := .idle)
    (row := s.s) (plane := s.p) (col := s.x) (l := s.lines) (by simp [dark]) h.pulses (.inr stable)
    (by simpa [State.countersPlaced, hs] using Or.inr ended)).emit (i := .frameEnd _) rfl).advanceDelta

/-! ### The host's transactions and the reset action keep it -/

theorem State.Inv.readPixel (i : Instr) (idx : BitVec 10) : (readPixel i idx s).Inv := by
  unfold Machine.readPixel
  split
  · exact h.respond _
  · exact (h.note (by simp) i).respond _

theorem State.Inv.writePixel (i : Instr) (idx : BitVec 10) (w : Word) : (writePixel i idx w s).Inv := by
  have stored := h.storePixel idx w
  unfold Machine.writePixel
  split
  · exact ((stored.withStatus _).note (by simp) i).acknowledge
  · exact stored.acknowledge

theorem State.Inv.go (i : Instr) : (s.go i).Inv := by
  unfold State.go
  split
  · exact h.startFrame ‹_›
  · exact (h.withStatus _).note (by simp) i

theorem State.Inv.execCtrlWr {w : Word} {t : State} (ht : execCtrlWr w s = .next t) : t.Inv := by
  have enabled := h.withCtrl ⟨w.getLsbD 1, w.getLsbD 2⟩
  unfold Machine.execCtrlWr at ht
  injection ht with ht
  subst ht
  split
  · exact (enabled.go _).acknowledge
  · exact enabled.acknowledge

/-- A reset gives the invariant its reset values back; the trace, which it keeps, stays legal (R340). -/
theorem State.Inv.resetAction : s.resetAction.Inv := { invariantHoldsAtReset with trace := h.trace }

/-! ### Every step keeps it -/

theorem State.Inv.exec_event {i : Instr} {t : State} (he : i.isEvent = true) (ht : exec i s = .next t) : t.Inv := by
  rcases exec_event_cases he ht with ⟨-, hs, rfl⟩ | ⟨-, hs, rfl⟩ | ⟨-, hs, rfl⟩ | ⟨-, hs, rfl⟩ | ⟨-, hs, rfl⟩ |
    ⟨-, hs, rfl⟩ | ⟨-, hs, rfl⟩ | ⟨-, hs, rfl⟩ | ⟨-, hs, rfl⟩
  · exact (h.startFrame hs).nextDraw
  · exact h.rowStep hs
  · exact h.colStep hs
  · exact h.clkStep hs
  · exact h.latStep hs
  · exact h.enonStep hs
  · exact h.holdStep hs
  · exact h.enoffStep hs
  · exact h.fendStep hs

theorem State.Inv.exec_host {i : Instr} {t : State} (he : i.isEvent = false) (ht : exec i s = .next t) : t.Inv := by
  rcases exec_host_cases he ht with ⟨idx, -, rfl⟩ | ⟨idx, w, v, -, rfl⟩ | ⟨-, -, r, rfl⟩ | ⟨c, hc, rfl⟩ |
    ⟨w, -, rfl⟩ | ⟨w, -, rfl⟩ | ⟨w, -, hw⟩
  · exact h.readPixel i idx
  · exact h.writePixel i idx v
  · exact h.respond _
  · obtain ⟨hne, hle⟩ := busErrorCause_range hc
    exact h.raiseBusError hne hle i
  · exact (h.withStatus _).acknowledge
  · exact (h.withBase (baseOfData_ne_zero w)).acknowledge
  · exact h.execCtrlWr hw

theorem State.Inv.exec {i : Instr} {t : State} (ht : exec i s = .next t) : t.Inv := by
  cases he : i.isEvent with
  | true => exact h.exec_event he ht
  | false => exact h.exec_host he ht

end

/-- Settles O55: a fetch changes the agenda alone, and what it finds is run, reset or quiet. -/
theorem everyStepKeepsTheInvariant : Obligations.EveryStepKeepsTheInvariant := by
  intro s t h hstep
  rcases fetch_cases s with ⟨i, a, hf⟩ | ⟨a, hf⟩ | ⟨a, hf, -⟩ | ⟨w, hf⟩
  all_goals simp only [step, hf, Host.Outcome.next.injEq, reduceCtorEq] at hstep
  · exact (h.withAgenda a).exec hstep
  · exact hstep ▸ (h.withAgenda a).resetAction
  · exact hstep ▸ h.withAgenda a

end Sys2Proof.Machine
end

section
/-!
PROOFS. Which step changes what: a micro-operation runs only as the engine's next step (R23), each flag and register has
its own writers (R32, R152), and the engine does not see bits 31:24 of a framebuffer word (R193).
-/
namespace Sys2Proof.Machine

open Sys2Proof.Claims

/-! ### A micro-operation runs only as the engine's next step (R23, R97) -/

/-- Every event but `FRAME_START` is run by `engineStep`. -/
theorem exec_event_eq_engineStep {i : Instr} (he : i.isEvent = true) (hne : ∀ b, i ≠ .frameStart b) (s : State) :
    ∃ n, exec i s = engineStep i s n := by
  cases i <;> simp only [Instr.isEvent, Bool.false_eq_true] at he
  case frameStart b => exact absurd rfl (hne b)
  all_goals exact ⟨_, rfl⟩

theorem execFrameStart_idle {b : BitVec 16} {s : State} (h : s.state = .idle ∧ s.base = b) :
    exec (.frameStart b) s = .next s.startFrame.nextDraw := if_pos h

theorem execFrameStart_stuck {b : BitVec 16} {s : State} (h : ¬(s.state = .idle ∧ s.base = b)) :
    exec (.frameStart b) s = .fault .stepNotEnabled := if_neg h

theorem exec_event_completes_iff {i : Instr} (he : i.isEvent = true) (hne : ∀ b, i ≠ .frameStart b) (s : State) :
    (∃ t, exec i s = .next t) ↔ s.engineNext = some i := by
  obtain ⟨n, hn⟩ := exec_event_eq_engineStep he hne s
  simp only [hn, engineStep_next, exists_and_left, exists_eq, and_true]

theorem exec_event_stuck {i : Instr} (he : i.isEvent = true) (hne : ∀ b, i ≠ .frameStart b) {s : State}
    (hs : s.engineNext ≠ some i) : exec i s = .fault .stepNotEnabled := by
  obtain ⟨n, hn⟩ := exec_event_eq_engineStep he hne s
  exact hn.trans (engineStep_stuck i s n hs)

theorem execFrameStart_completes_iff (b : BitVec 16) (s : State) :
    (∃ t, exec (.frameStart b) s = .next t) ↔ s.state = .idle ∧ s.base = b := by
  refine ⟨fun ⟨t, ht⟩ => ?_, fun h => ⟨_, execFrameStart_idle h⟩⟩
  by_contra h
  rw [execFrameStart_stuck h] at ht
  cases ht

/-- Settles O44: `engineStep` completes exactly as the next step, and `FRAME_START` exactly in `IDLE` with its unit. -/
theorem microOperationsRunOnlyWhenNext : Obligations.MicroOperationsRunOnlyWhenNext :=
  ⟨fun s _ he hne => ⟨exec_event_completes_iff he hne s, exec_event_stuck he hne⟩,
    fun s b => ⟨execFrameStart_completes_iff b s, execFrameStart_stuck⟩⟩

/-! ### The flags (R32, R296) -/

/-- The refused transactions are those with a cause (R95, R290). -/
theorem isBusError_of_busErrorCause {i : Instr} {c : BitVec 3} (h : busErrorCause i = some c) : isBusError i = true := by
  cases i <;> simp only [busErrorCause, reduceCtorEq] at h <;> rfl

@[simp] theorem readPixel_status (i : Instr) (idx : BitVec 10) (s : State) : (readPixel i idx s).status = s.status := by
  rw [readPixel_frame]

@[simp] theorem writePixel_status (i : Instr) (idx : BitVec 10) (w : Word) (s : State) :
    (writePixel i idx w s).status = { s.status with scanWr := s.status.scanWr || s.busy } := by
  rw [writePixel_eq]

@[simp] theorem State.busy_iff (s : State) : s.busy = true ↔ s.state ≠ .idle := by
  simp [State.busy]

/-- `CTRL_WR` leaves the flags alone, unless it ignores a `GO` (R251, R351). -/
theorem execCtrlWr_status {w : Word} {s t : State} (h : execCtrlWr w s = .next t) :
    t.status = s.status ∨
      (w.getLsbD 0 = true ∧ s.state ≠ .idle ∧ t.status = { s.status with goIgn := true }) := by
  rw [execCtrlWr_eq] at h
  injection h with h
  subst h
  split_ifs with go idle
  · exact .inl rfl
  · exact .inr ⟨go, idle, rfl⟩
  · exact .inl rfl

/-- An event leaves the flags alone, but for `FRAME_END` (R220). -/
theorem exec_event_status {i : Instr} {s t : State} (he : i.isEvent = true) (h : exec i s = .next t) :
    t.status = s.status ∨ ((∃ n, i = .frameEnd n) ∧ t.status = { s.status with frameDone := true }) := by
  rcases exec_event_cases he h with ⟨-, -, rfl⟩ | ⟨-, -, rfl⟩ | ⟨-, -, rfl⟩ | ⟨-, -, rfl⟩ | ⟨-, -, rfl⟩ |
    ⟨-, -, rfl⟩ | ⟨-, -, rfl⟩ | ⟨-, -, rfl⟩ | ⟨hi, -, rfl⟩
  · exact .inl rfl
  · exact .inl rfl
  · exact .inl (by rw [State.colStep_eq])
  · exact .inl (by rw [State.clkStep_eq])
  · exact .inl rfl
  · exact .inl rfl
  · exact .inl (by rw [State.holdStep_eq])
  · exact .inl (by rw [State.enoffStep_eq])
  · exact .inr ⟨⟨_, hi⟩, rfl⟩

/-- What a host transaction does to the flags: nothing, one of the three settings, or a `STATUS_WR` (R32, R296). -/
theorem exec_host_status {i : Instr} {s t : State} (he : i.isEvent = false) (h : exec i s = .next t) :
    t.status = s.status ∨
    ((∃ idx w, i = .fbWr idx w ∨ i = .fbgWr idx w) ∧ s.state ≠ .idle ∧ t.status = { s.status with scanWr := true }) ∨
    ((∃ w, i = .ctrlWr w ∧ w.getLsbD 0 = true) ∧ s.state ≠ .idle ∧ t.status = { s.status with goIgn := true }) ∨
    (isBusError i = true ∧ t.status = { s.status with busErr := true }) ∨
    ∃ w, i = .statusWr w ∧ t.status = s.status.clear w := by
  rcases exec_host_cases he h with ⟨idx, -, rfl⟩ | ⟨idx, w, v, hi, rfl⟩ | ⟨-, -, r, rfl⟩ | ⟨c, hc, rfl⟩ |
    ⟨w, hi, rfl⟩ | ⟨w, -, rfl⟩ | ⟨w, hi, hw⟩
  · exact .inl (readPixel_status i idx s)
  · rw [writePixel_status]
    by_cases hb : s.busy = true
    · exact .inr (.inl ⟨⟨idx, w, hi⟩, (State.busy_iff s).1 hb, by simp [hb]⟩)
    · exact .inl (by simp [hb])
  · exact .inl rfl
  · exact .inr (.inr (.inr (.inl ⟨isBusError_of_busErrorCause hc, rfl⟩)))
  · exact .inr (.inr (.inr (.inr ⟨w, hi, rfl⟩)))
  · exact .inl rfl
  · rcases execCtrlWr_status hw with same | ⟨go, busy, ht⟩
    · exact .inl same
    · exact .inr (.inr (.inl ⟨⟨w, hi, go⟩, busy, ht⟩))

/-- Under `STATUS_WR` a flag is unchanged, or was cleared by its written 1 (R253). -/
theorem flag_clear_cases {i : Instr} {w : Word} (hi : i = .statusWr w) (f : Bool) (k : Nat) (wasSet : Prop) :
    (f && !w.getLsbD k) = f ∨ wasSet ∨
      ((f && !w.getLsbD k) = false ∧ ∃ w', i = .statusWr w' ∧ w'.getLsbD k = true) := by
  cases hk : w.getLsbD k
  · exact .inl (by simp)
  · exact .inr (.inr ⟨by simp, w, hi, hk⟩)

/-- Settles O49, by what an event and what a host transaction does to the flags. -/
theorem statusFlagsChangeOnlyAsListed : Obligations.StatusFlagsChangeOnlyAsListed := by
  intro i s t h
  cases he : i.isEvent with
  | true =>
    rcases exec_event_status he h with ht | ⟨hi, ht⟩ <;> rw [ht]
    · exact ⟨.inl rfl, .inl rfl, .inl rfl, .inl rfl⟩
    · exact ⟨.inr (.inl ⟨rfl, hi⟩), .inl rfl, .inl rfl, .inl rfl⟩
  | false =>
    rcases exec_host_status he h with ht | ⟨hi, busy, ht⟩ | ⟨hi, busy, ht⟩ | ⟨hi, ht⟩ | ⟨w, hi, ht⟩ <;> rw [ht]
    · exact ⟨.inl rfl, .inl rfl, .inl rfl, .inl rfl⟩
    · exact ⟨.inl rfl, .inr (.inl ⟨rfl, busy, hi⟩), .inl rfl, .inl rfl⟩
    · exact ⟨.inl rfl, .inl rfl, .inr (.inl ⟨rfl, busy, hi⟩), .inl rfl⟩
    · exact ⟨.inl rfl, .inl rfl, .inl rfl, .inr (.inl ⟨rfl, hi⟩)⟩
    · exact ⟨flag_clear_cases hi _ 1 _, flag_clear_cases hi _ 2 _, flag_clear_cases hi _ 3 _, flag_clear_cases hi _ 4 _⟩

/-! ### The registers (R152) -/

/-- Settles O50, by what each event and each host transaction changes. -/
theorem registersHaveOnlyTheirWriters : Obligations.RegistersHaveOnlyTheirWriters := by
  intro i s t h
  cases he : i.isEvent with
  | true =>
    rcases exec_event_cases he h with ⟨rfl, -, rfl⟩ | ⟨rfl, -, rfl⟩ | ⟨rfl, -, rfl⟩ | ⟨rfl, -, rfl⟩ | ⟨rfl, -, rfl⟩ |
      ⟨rfl, -, rfl⟩ | ⟨rfl, -, rfl⟩ | ⟨rfl, -, rfl⟩ | ⟨rfl, -, rfl⟩
    · simp [startsFrame]
    · simp [State.rowStep_eq, Lines.drive]
    · simp [State.colStep_eq, Lines.address]
    · simp [State.clkStep_eq, Lines.address]
    · simp [State.latStep_eq, Lines.address]
    · simp [State.enonStep_eq, Lines.address]
    · simp [State.holdStep_eq]
    · rw [State.enoffStep_eq]
      simp [Lines.address]
    · simp [State.fendStep_eq]
  | false =>
    rcases exec_host_cases he h with ⟨idx, -, rfl⟩ | ⟨idx, w, v, hi, rfl⟩ | ⟨-, -, r, rfl⟩ | ⟨c, hc, rfl⟩ |
      ⟨w, rfl, rfl⟩ | ⟨w, rfl, rfl⟩ | ⟨w, rfl, hw⟩
    · rw [readPixel_frame]
      simp
    · rw [writePixel_eq]
      simp only [ne_eq, not_true, or_self, IsEmpty.forall_iff, true_and, and_true]
      exact fun _ => ⟨idx, w, hi⟩
    · simp
    · simp [isBusError_of_busErrorCause hc]
    · simp
    · simp
    · rw [execCtrlWr_eq] at hw
      injection hw with hw
      subst hw
      split_ifs <;> simp [startsFrame]

/-! ### Bits 31:24 of a framebuffer word (R26, R193) -/

/-- A plane's colours are bits 23:0 of the two pixels (R190). -/
theorem planeColours_congr {top top' bot bot' : Word} (p : BitVec 3)
    (htop : top.extractLsb' 0 24 = top'.extractLsb' 0 24) (hbot : bot.extractLsb' 0 24 = bot'.extractLsb' 0 24) :
    planeColours top bot p = planeColours top' bot' p := by
  have bit : ∀ {v v' : Word}, v.extractLsb' 0 24 = v'.extractLsb' 0 24 → ∀ k < 24, v.getLsbD k = v'.getLsbD k := by
    intro v v' h k hk
    simpa [hk] using congrArg (·.getLsbD k) h
  have hp : p.toNat < 8 := p.isLt
  simp only [planeColours, bit htop _ (show p.toNat < 24 by omega), bit htop _ (show 8 + p.toNat < 24 by omega),
    bit htop _ (show 16 + p.toNat < 24 by omega), bit hbot _ (show p.toNat < 24 by omega),
    bit hbot _ (show 8 + p.toNat < 24 by omega), bit hbot _ (show 16 + p.toNat < 24 by omega)]

/-- Two framebuffers, that of `s` and `m`, agree in bits 23:0 and in which words are written. -/
def State.sameColours (s : State) (m : Memory) : Prop :=
  ∀ idx, (s.fb idx).map (fun w : Word => w.extractLsb' 0 24) =
    (State.fb { s with mem := m } idx).map (fun w : Word => w.extractLsb' 0 24)

section
variable {s : State} {m : Memory} (same : s.sameColours m)
include same

/-- Such framebuffers read alike in bits 23:0, also where a word is unwritten. -/
theorem State.pixel_of_sameColours (idx : BitVec 10) :
    (State.pixel { s with mem := m } idx).extractLsb' 0 24 = (s.pixel idx).extractLsb' 0 24 := by
  unfold State.pixel
  rw [← Option.getD_map (fun w : Word => w.extractLsb' 0 24), ← Option.getD_map (fun w : Word => w.extractLsb' 0 24),
    same idx]

theorem State.isSome_fb_of_sameColours (idx : BitVec 10) :
    (State.fb { s with mem := m } idx).isSome = (s.fb idx).isSome := by
  simpa using congrArg Option.isSome (same idx).symm

theorem State.columnColours_of_sameColours : State.columnColours { s with mem := m } = s.columnColours :=
  planeColours_congr s.p (State.pixel_of_sameColours same _) (State.pixel_of_sameColours same _)

theorem State.columnWritten_of_sameColours : State.columnWritten { s with mem := m } = s.columnWritten := by
  simp only [State.columnWritten, State.isSome_fb_of_sameColours same]

/-- The engine's next step is the same one. -/
theorem State.engineNext_of_sameColours : State.engineNext { s with mem := m } = s.engineNext := by
  simp only [State.engineNext, State.columnColours_of_sameColours same]

/-- The `COL` step does the same to everything but the framebuffer. -/
theorem State.colStep_of_sameColours : State.colStep { s with mem := m } = { s.colStep with mem := m } := by
  simp only [State.colStep_eq, State.columnColours_of_sameColours same, State.columnWritten_of_sameColours same]

end

/-- The steps but `COL` do not read the framebuffer (R190). -/
theorem State.clkStep_withMem (s : State) (m : Memory) : State.clkStep { s with mem := m } = { s.clkStep with mem := m } := by
  simp only [State.clkStep_eq]

theorem State.holdStep_withMem (s : State) (m : Memory) :
    State.holdStep { s with mem := m } = { s.holdStep with mem := m } := by
  unfold State.holdStep State.light
  split <;> rfl

theorem State.enoffStep_withMem (s : State) (m : Memory) :
    State.enoffStep { s with mem := m } = { s.enoffStep with mem := m } := by
  unfold State.enoffStep
  split_ifs <;> rfl

/-- Settles O53, by the nine events. -/
theorem ignoredBitsNeverReachALine : Obligations.IgnoredBitsNeverReachALine := by
  intro s t m i same he h
  have next : s.engineNext = some i → State.engineNext { s with mem := m } = some i :=
    (State.engineNext_of_sameColours same).trans
  rcases exec_event_cases he h with ⟨rfl, hs, rfl⟩ | ⟨rfl, hs, rfl⟩ | ⟨rfl, hs, rfl⟩ | ⟨rfl, hs, rfl⟩ | ⟨rfl, hs, rfl⟩ |
    ⟨rfl, hs, rfl⟩ | ⟨rfl, hs, rfl⟩ | ⟨rfl, hs, rfl⟩ | ⟨rfl, hs, rfl⟩
  · exact execFrameStart_idle ⟨hs, rfl⟩
  all_goals refine (engineStep_next _ _ _ _).2 ⟨next (by simp [State.engineNext, hs]), ?_⟩
  · rfl
  · exact (State.colStep_of_sameColours same).symm
  · exact (State.clkStep_withMem s m).symm
  · rfl
  · rfl
  · exact (State.holdStep_withMem s m).symm
  · exact (State.enoffStep_withMem s m).symm
  · rfl

end Sys2Proof.Machine
end

section
/-!
PROOFS. The values at reset (R45), the word of `LINES_RD` and the IRQ line (R39, R42), and the hold weights (R38).
-/
namespace Sys2Proof.Machine

open Sys2Proof.Claims

/-! ### Reset (R45) -/

/-- Every entry of the gamma table is a byte (R131). -/
theorem lutEntries_getD_lt (n : Nat) : lutEntries.getD n 0 < 256 := by
  have bytes : ∀ e ∈ lutEntries, e < 256 := by
    simp only [lutEntries, List.forall_mem_append]
    decide
  rw [List.getD_eq_getElem?_getD]
  cases hn : lutEntries[n]? with
  | none => decide
  | some e => exact bytes e (List.mem_of_getElem? hn)

theorem lut_toNat (idx : BitVec 8) : (lut idx).toNat = lutEntries.getD idx.toNat 0 := by
  rw [lut, BitVec.toNat_ofNat, Nat.mod_eq_of_lt (lutEntries_getD_lt _)]

/-- The gamma table is valid in every state (R133). -/
theorem lutValid_all (s : State) : lutValid s := fun idx =>
  ⟨(lut idx).setWidth 32, rfl, by rw [BitVec.toNat_setWidth_of_le (by decide), lut_toNat]⟩

/-- Settles O1: the reset values are read off the state, and the gamma table is valid in every state. -/
theorem resetLeavesTheListedValues : Obligations.ResetLeavesTheListedValues := by
  refine ⟨rfl, rfl, rfl, rfl, rfl, fun _ => rfl, rfl, by decide, rfl, by decide, rfl, rfl, by decide, by decide, rfl, rfl,
    rfl, rfl, rfl, fun r c => ?_, lutValid_all _⟩
  simp [State.reset]

/-! ### The lines and IRQ (R39, R42) -/

/-- The IRQ line as a condition on the enables and the flags (R42). -/
theorem State.irq_iff (s : State) : s.irq = true ↔
    (s.ctrl.ieFrame = true ∧ s.status.frameDone = true) ∨
      (s.ctrl.ieErr = true ∧ (s.status.scanWr = true ∨ s.status.goIgn = true ∨ s.status.busErr = true)) := by
  simp [State.irq, or_assoc]

/-- The word of `LINES_RD` as arithmetic (R39, R259). -/
theorem State.linesWord_toNat (s : State) : s.linesWord.toNat =
    s.lines.addr0.toNat + 2 * s.lines.addr1.toNat + 4 * s.lines.addr2.toNat + 8 * s.lines.addr3.toNat +
      16 * lines6 s.lines.colours + 2 ^ 12 * s.lines.en.toNat + 2 ^ 13 * s.irq.toNat := by
  unfold State.linesWord lines6
  iterate 14 rw [toNat_append_add]
  simp only [BitVec.toNat_ofBool, BitVec.toNat_ofNat]
  ring

/-- Settles O29, by the arithmetic of the word. -/
theorem linesReadReturnsTheLevels : Obligations.LinesReadReturnsTheLevels := by
  refine ⟨by decide, fun s => ⟨s.linesWord, rfl, ?_⟩⟩
  rw [State.linesWord_toNat]
  simp only [← State.irq_iff, Bool.toNat, Bool.cond_eq_ite]

/-- `LINES_RD` shows IRQ in bit 13 (R39). -/
theorem State.linesWord_irq (s : State) : s.linesWord.getLsbD 13 = s.irq := by
  unfold State.linesWord
  iterate 14 rw [BitVec.getLsbD_append]
  simp

/-- Settles O32, by the IRQ condition and bit 13 of the word. -/
theorem irqFollowsTheEnabledFlags : Obligations.IrqFollowsTheEnabledFlags :=
  fun s => ⟨s.irq_iff, s.linesWord_irq⟩

/-! ### The weights (R38) -/

/-- Settles O33, by `weight_toNat`. -/
theorem weightsDoubleExactly : Obligations.WeightsDoubleExactly := by
  intro base p
  have hb : base.toNat ≤ 65535 := Nat.le_of_lt_succ base.isLt
  have hp : p.toNat ≤ 7 := Nat.le_of_lt_succ p.isLt
  simp only [weight_toNat]
  refine ⟨trivial, ?_, fun q hq => ?_⟩
  · calc base.toNat * 2 ^ p.toNat ≤ 65535 * 2 ^ 7 := Nat.mul_le_mul hb (Nat.pow_le_pow_right (by decide) hp)
      _ = 8388480 := by decide
  · rw [hq, pow_succ]
    ring

end Sys2Proof.Machine
end

section
/-!
PROOFS. A host read that is not refused answers one word and changes nothing else but the fault record (R69), no engine step
reaches the host's side of the block (R70, R152), and the interconnect routes exactly the window (R61).
-/
namespace Sys2Proof.Machine

open Sys2Proof.Claims

/-! ### Host reads (R69, R134, R138, R150, R252-R261) -/

/-- The word that a host read answers (R69); 0 for every other instruction, which reads nothing. -/
def State.readAnswer (s : State) : Instr → Word
  | .fbRd idx | .fbgRd idx => s.pixel idx
  | .lutRd idx => (lut idx).setWidth 32
  | .ctrlRd => s.ctrlWord
  | .statusRd => s.statusWord
  | .baseRd => s.base.setWidth 32
  | .framesRd => s.frames
  | .scanposRd => s.scanposWord
  | .linesRd => s.linesWord
  | .errcauseRd => s.errCause.setWidth 32
  | .erraddrRd => s.errKey.setWidth 32
  | _ => 0#32

/-- No host read sees the fault record or the answers given before it. -/
@[simp] theorem State.readAnswer_withRecord (s : State) (record : List RecordEntry) (responses : List Response) (i : Instr) :
    State.readAnswer { s with record := record, responses := responses } i = s.readAnswer i := by
  cases i <;> rfl

/-- A pixel read answers the pixel, and adds to the record only when the word is unwritten (R29, R297). -/
theorem readPixel_eq (i : Instr) (idx : BitVec 10) (s : State) :
    readPixel i idx s =
      { s with record := if (s.fb idx).isSome then s.record else s.record ++ [⟨.uninitFbRead, i⟩]
               responses := s.responses ++ [.read (s.pixel idx)] } := by
  cases h : s.fb idx with
  | none => rw [readPixel_unwritten i idx s h]; simp [State.pixel, h]
  | some w => rw [readPixel_written i idx s w h]; simp [State.pixel, State.respond, h]

/-- A host read that is not refused answers its word and changes at most the record, which a read of a register, of the
gamma table or of a written pixel leaves alone (R69, R297). -/
theorem exec_read {i : Instr} (s : State) (he : i.isEvent = false) (hr : accessOf i = .read) (hb : isBusError i = false) :
    ∃ record, exec i s = .next { s with record := record, responses := s.responses ++ [.read (s.readAnswer i)] } ∧
      ((∀ idx, i = .fbRd idx ∨ i = .fbgRd idx → (s.fb idx).isSome = true) → record = s.record) := by
  cases i <;> simp only [Instr.isEvent, accessOf, isBusError, reduceCtorEq] at he hr hb
  case fbRd idx =>
    exact ⟨_, congrArg Host.Outcome.next (readPixel_eq _ idx s), fun written => if_pos (written idx (.inl rfl))⟩
  case fbgRd idx =>
    exact ⟨_, congrArg Host.Outcome.next (readPixel_eq _ idx s), fun written => if_pos (written idx (.inr rfl))⟩
  all_goals exact ⟨s.record, rfl, fun _ => rfl⟩

/-- Settles O31: the record does not grow, since every pixel read is of a written word. -/
theorem hostReadsHaveNoSideEffect : Obligations.HostReadsHaveNoSideEffect := by
  intro i s he hr hb written
  obtain ⟨record, run, same⟩ := exec_read s he hr hb
  rw [same written] at run
  exact ⟨s.readAnswer i, run⟩

/-- Settles O60: the first read changes only the record and the answers, which the word of the second does not depend on. -/
theorem hostReadsAreIdempotent : Obligations.HostReadsAreIdempotent := by
  intro i s he hr hb
  obtain ⟨record, first, -⟩ := exec_read s he hr hb
  obtain ⟨record', second, -⟩ :=
    exec_read { s with record := record, responses := s.responses ++ [.read (s.readAnswer i)] } he hr hb
  exact ⟨s.readAnswer i, _, _, first, second, rfl, by simp⟩

/-! ### The engine leaves the host's side alone (R70, R152, R229) -/

/-- Settles O47, by the nine events and the fields that each one writes. -/
theorem engineStepsLeaveHostStateAndFramebuffer : Obligations.EngineStepsLeaveHostStateAndFramebuffer := by
  intro i s t he h
  rcases exec_event_cases he h with ⟨-, -, rfl⟩ | ⟨-, -, rfl⟩ | ⟨-, -, rfl⟩ | ⟨-, -, rfl⟩ | ⟨-, -, rfl⟩ |
    ⟨-, -, rfl⟩ | ⟨-, -, rfl⟩ | ⟨-, -, rfl⟩ | ⟨-, -, rfl⟩
  · simp
  · simp [State.rowStep_eq]
  · simp [State.colStep_eq]
  · simp [State.clkStep_eq]
  · simp [State.latStep_eq]
  · simp [State.enonStep_eq]
  · simp [State.holdStep_eq]
  · rw [State.enoffStep_eq]
    simp
  · simp [State.fendStep_eq]

/-! ### The window (R61) -/

/-- Settles O59: inside the window the distance from `BLOCK_BASE` fits the 14 bits of an offset. -/
theorem busAddressesRouteToTheWindow : Obligations.BusAddressesRouteToTheWindow := by
  intro a off
  unfold routeAddress
  split
  · rename_i inside
    have fits : (a - Config.blockBase) % 2 ^ 14 = a - Config.blockBase := Nat.mod_eq_of_lt (by omega)
    rw [Option.some.injEq, ← BitVec.toNat_inj, BitVec.toNat_ofNat, fits]
    exact ⟨fun h => ⟨inside.1, inside.2, h.symm⟩, fun ⟨_, _, h⟩ => h.symm⟩
  · rename_i outside
    exact ⟨nofun, fun ⟨lower, upper, _⟩ => absurd ⟨lower, upper⟩ outside⟩

end Sys2Proof.Machine
end

section
/-!
PROOFS. Which keys a row of R94 and R95 takes, as arithmetic on the fields that its mask covers.
-/
namespace Sys2Proof

/-! ### Mask and match, field by field -/

/-- When the set bits of the mask are those of the given fields (lowest bit, width), the masked word is the pattern
exactly when each field has the value it has in the pattern. -/
theorem and_eq_iff_fields {w : Nat} {x mask pattern : BitVec w} (fields : List (Nat × Nat))
    (hmask : ∀ i : Fin w, mask.getLsbD i = fields.any fun f => f.1 ≤ i.val ∧ i.val < f.1 + f.2)
    (hpattern : pattern &&& mask = pattern) :
    x &&& mask = pattern ↔ ∀ f ∈ fields, x.toNat / 2 ^ f.1 % 2 ^ f.2 = pattern.toNat / 2 ^ f.1 % 2 ^ f.2 := by
  have bit : ∀ (y : BitVec w) (f : Nat × Nat) (i : Nat),
      (y.toNat / 2 ^ f.1 % 2 ^ f.2).testBit i = (decide (i < f.2) && y.getLsbD (i + f.1)) := fun y f i => by
    rw [Nat.testBit_mod_two_pow, Nat.testBit_div_two_pow, BitVec.testBit_toNat]
  constructor
  · intro h f hf
    refine Nat.eq_of_testBit_eq fun i => ?_
    rw [bit, bit]
    by_cases hi : i < f.2 ∧ i + f.1 < w
    · have covered : mask.getLsbD (i + f.1) = true :=
        (hmask ⟨i + f.1, hi.2⟩).trans (List.any_eq_true.2 ⟨f, hf, by simp; omega⟩)
      simp [← h, covered]
    · by_cases hf2 : i < f.2
      · rw [BitVec.getLsbD_of_ge _ _ (by omega), BitVec.getLsbD_of_ge _ _ (by omega)]
      · simp [hf2]
  · intro h
    rw [← hpattern]
    refine BitVec.eq_of_getLsbD_eq fun i hi => ?_
    rw [BitVec.getLsbD_and, BitVec.getLsbD_and]
    by_cases covered : mask.getLsbD i = true
    · obtain ⟨f, hf, inside⟩ := List.any_eq_true.1 ((hmask ⟨i, hi⟩).symm.trans covered)
      obtain ⟨lower, upper⟩ := of_decide_eq_true inside
      have same := congrArg (Nat.testBit · (i - f.1)) (h f hf)
      simp only [bit, Nat.sub_add_cancel lower, Nat.sub_lt_left_of_lt_add lower upper, decide_true, Bool.true_and] at same
      rw [same]
    · simp [covered]

/-! ### The fields of a key as arithmetic (R91, R92, R64) -/

theorem toNat_getLsbD {w : Nat} (x : BitVec w) (i : Nat) : (x.getLsbD i).toNat = x.toNat / 2 ^ i % 2 :=
  Nat.toNat_testBit ..

theorem getLsbD_eq_true_iff {w : Nat} (x : BitVec w) (i : Nat) : x.getLsbD i = true ↔ x.toNat / 2 ^ i % 2 = 1 := by
  rw [← toNat_getLsbD, Bool.toNat_eq_one]

theorem Key.size_toNat (key : Key) : key.size.toNat = key.toNat / 2 ^ 15 % 2 ^ 2 := by
  rw [Key.size, BitVec.extractLsb'_toNat, Nat.shiftRight_eq_div_pow]

theorem Key.isWrite_toNat (key : Key) : key.isWrite.toNat = key.toNat / 2 ^ 14 % 2 := toNat_getLsbD key 14

theorem Key.isWrite_iff (key : Key) : key.isWrite = true ↔ key.toNat / 2 ^ 14 % 2 = 1 := getLsbD_eq_true_iff key 14

theorem Key.off_toNat (key : Key) : key.off.toNat = key.toNat % 2 ^ 14 := by
  rw [Key.off, BitVec.extractLsb'_toNat, Nat.shiftRight_zero]

theorem Key.pixelIndex_toNat (key : Key) : key.pixelIndex.toNat = key.toNat / 2 ^ 2 % 2 ^ 10 := by
  rw [Key.pixelIndex, BitVec.extractLsb'_toNat, Nat.shiftRight_eq_div_pow]

theorem Key.lutIndex_toNat (key : Key) : key.lutIndex.toNat = key.toNat / 2 ^ 2 % 2 ^ 8 := by
  rw [Key.lutIndex, BitVec.extractLsb'_toNat, Nat.shiftRight_eq_div_pow]

@[simp] theorem Key.isWrite_access (key : Key) (wdata : Word) : (key.access wdata).isWrite = key.isWrite := by
  cases h : key.isWrite <;> simp [Key.access, Access.isWrite, h]

theorem windowOffset_toNat (window : BitVec 2) (idx : BitVec 10) :
    (windowOffset window idx).toNat = window.toNat * 2 ^ 12 + idx.toNat * 2 ^ 2 := by
  rw [windowOffset, toNat_append_add, toNat_append_add, BitVec.toNat_ofNat]
  omega

theorem lutOffset_toNat (idx : BitVec 8) : (lutOffset idx).toNat = 0x1000 + idx.toNat * 2 ^ 2 := by
  rw [lutOffset, toNat_append_add, toNat_append_add, BitVec.toNat_ofNat, BitVec.toNat_ofNat]
  omega

/-- The size codes of a byte and a halfword are 0 and 1. -/
theorem narrowSize_toNat (half : Bool) : (0#1 ++ BitVec.ofBool half).toNat = half.toNat := by cases half <;> rfl

/-! ### Which keys a row takes (R94, R95) -/

theorem KeyRow.takes_iff {mask pattern : Key} {build : Key → Word → Instr} {key : Key} :
    KeyRow.takes ⟨mask, pattern, build⟩ key = true ↔ key &&& mask = pattern := beq_iff_eq

/-- A row of one register looks at the whole key, so it takes one key only. -/
theorem KeyRow.takes_iff_eq {row : KeyRow} (hmask : row.mask = 0x1FFFF#17) {key : Key} :
    row.takes key = true ↔ key = row.pattern := by
  rw [KeyRow.takes, hmask, beq_iff_eq, show 0x1FFFF#17 = BitVec.allOnes 17 from rfl, BitVec.and_allOnes]

section
variable {pattern : Key} (build : Key → Word → Instr) (key : Key)

/-- A row of a 4 KiB window looks at `SIZE`, `W`, `OFF[13:12]` and `OFF[1:0]`. -/
theorem windowRow_takes_iff (hpattern : pattern &&& 0x1F003#17 = pattern) :
    KeyRow.takes ⟨0x1F003#17, pattern, build⟩ key = true ↔
      key.toNat / 2 ^ 12 % 2 ^ 5 = pattern.toNat / 2 ^ 12 % 2 ^ 5 ∧ key.toNat % 2 ^ 2 = pattern.toNat % 2 ^ 2 := by
  simp [KeyRow.takes_iff, and_eq_iff_fields [(12, 5), (0, 2)] (by decide) hpattern]

/-- A row of the gamma table looks at all but the table's index. -/
theorem lutRow_takes_iff (hpattern : pattern &&& 0x1FC03#17 = pattern) :
    KeyRow.takes ⟨0x1FC03#17, pattern, build⟩ key = true ↔
      key.toNat / 2 ^ 10 % 2 ^ 7 = pattern.toNat / 2 ^ 10 % 2 ^ 7 ∧ key.toNat % 2 ^ 2 = pattern.toNat % 2 ^ 2 := by
  simp [KeyRow.takes_iff, and_eq_iff_fields [(10, 7), (0, 2)] (by decide) hpattern]

theorem registerRow_takes_iff : KeyRow.takes ⟨0x1FFFF#17, pattern, build⟩ key = true ↔ key = pattern :=
  KeyRow.takes_iff_eq rfl

theorem sizeNarrowRow_takes_iff :
    KeyRow.takes ⟨0x10000#17, 0x00000#17, build⟩ key = true ↔ key.toNat / 2 ^ 16 % 2 = 0 := by
  rw [KeyRow.takes_iff, and_eq_iff_fields [(16, 1)] (by decide) (by decide)]
  simp

theorem sizeReservedRow_takes_iff :
    KeyRow.takes ⟨0x18000#17, 0x18000#17, build⟩ key = true ↔ key.toNat / 2 ^ 15 % 2 ^ 2 = 3 := by
  rw [KeyRow.takes_iff, and_eq_iff_fields [(15, 2)] (by decide) (by decide)]
  simp

theorem alignOddRow_takes_iff :
    KeyRow.takes ⟨0x18001#17, 0x10001#17, build⟩ key = true ↔
      key.toNat / 2 ^ 15 % 2 ^ 2 = 2 ∧ key.toNat % 2 = 1 := by
  rw [KeyRow.takes_iff, and_eq_iff_fields [(15, 2), (0, 1)] (by decide) (by decide)]
  simp

theorem alignEvenRow_takes_iff :
    KeyRow.takes ⟨0x18002#17, 0x10002#17, build⟩ key = true ↔
      key.toNat / 2 ^ 15 % 2 ^ 2 = 2 ∧ key.toNat / 2 % 2 = 1 := by
  rw [KeyRow.takes_iff, and_eq_iff_fields [(15, 2), (1, 1)] (by decide) (by decide)]
  simp

end

end Sys2Proof
end

section
/-!
PROOFS. Host decode (R93): the row that decodes a key, and that the decoded instruction keeps the whole key.
-/
namespace Sys2Proof

/-! ### First match (R93) -/

/-- The rows of R94 and R95 in the order in which the decoder tries them. -/
abbrev keyRows : List KeyRow := legalKeyRows ++ errorKeyRows

/-- Two rows that take the same key agree on the bits that both look at. -/
theorem KeyRow.patterns_agree_of_takes {a b : KeyRow} {key : Key} (ha : a.takes key = true) (hb : b.takes key = true) :
    a.pattern &&& b.mask = b.pattern &&& a.mask := by
  rw [← KeyRow.takes_iff.1 ha, ← KeyRow.takes_iff.1 hb, BitVec.and_assoc, BitVec.and_assoc, BitVec.and_comm a.mask]

/-- Settles O9: every two of the rows differ in a bit that both look at. -/
theorem legalKeyRowsAreDisjoint : Obligations.LegalKeyRowsAreDisjoint := by
  have differ : legalKeyRows.Pairwise fun a b => a.pattern &&& b.mask ≠ b.pattern &&& a.mask := by decide
  exact differ.imp fun h _ ⟨ha, hb⟩ => h (KeyRow.patterns_agree_of_takes ha hb)

/-- Only the two alignment rows, 18 and 19, can take the same key. -/
theorem keyRows_overlap : ∀ j k : Fin keyRows.length, j < k →
    keyRows[j].pattern &&& keyRows[k].mask = keyRows[k].pattern &&& keyRows[j].mask → j.val = 18 ∧ k.val = 19 := by
  decide

/-- The row that takes a key decodes it, unless it is row 19 and row 18 takes the key before it. -/
theorem decodeKey_of_takes {k : Fin keyRows.length} {key : Key} (h : keyRows[k].takes key = true)
    (hfirst : k.val ≠ 19 ∨ ¬ keyRows[18].takes key = true) (wdata : Word) :
    decodeKey key wdata = keyRows[k].build key wdata := by
  have found : keyRows.find? (fun row => row.takes key) = some keyRows[k] := by
    refine List.find?_eq_some_iff_getElem.2 ⟨h, k.val, k.isLt, rfl, fun j hj => ?_⟩
    have earlier : ¬ keyRows[j].takes key = true := fun hjw => by
      obtain ⟨hj18, hk19⟩ := keyRows_overlap ⟨j, hj.trans k.isLt⟩ k hj (KeyRow.patterns_agree_of_takes hjw h)
      subst hj18
      exact hfirst.elim (absurd hk19) (absurd hjw)
    simpa using earlier
  simp only [decodeKey, found]

/-- The keys of the catch-all row of R95: aligned word accesses to a reserved range. -/
theorem keyRows_none_takes_iff (key : Key) :
    (∀ row ∈ keyRows, ¬ row.takes key = true) ↔
      key.size = 0b10#2 ∧ key.off.aligned = true ∧ key.off.unmapped = true := by
  have hkey : key.toNat < 2 ^ 17 := key.isLt
  simp only [keyRows, legalKeyRows, errorKeyRows, List.cons_append, List.nil_append, List.forall_mem_cons,
    windowRow_takes_iff, lutRow_takes_iff, registerRow_takes_iff, sizeNarrowRow_takes_iff, sizeReservedRow_takes_iff,
    alignOddRow_takes_iff, alignEvenRow_takes_iff, BitVec.reduceAnd]
  simp [← BitVec.toNat_inj, Offset.aligned, Offset.unmapped, Key.size_toNat, Key.off_toNat]
  omega

/-- A key that no row takes falls to the catch-all row (R95). -/
theorem decodeKey_of_none_takes {key : Key} (h : ∀ row ∈ keyRows, ¬ row.takes key = true) (wdata : Word) :
    decodeKey key wdata = .busErrUnmapped key.off (key.access wdata) := by
  have missed : keyRows.find? (fun row => row.takes key) = none := List.find?_eq_none.2 h
  simp only [decodeKey, missed]

/-- A key is decoded by a row that takes it, or falls to the catch-all row. -/
theorem decodeKey_cases (key : Key) (wdata : Word) :
    (∃ row ∈ keyRows, row.takes key = true ∧ decodeKey key wdata = row.build key wdata) ∨
      ((∀ row ∈ keyRows, ¬ row.takes key = true) ∧
        decodeKey key wdata = .busErrUnmapped key.off (key.access wdata)) := by
  cases hfind : keyRows.find? (fun row => row.takes key) with
  | some row =>
    exact .inl ⟨row, List.mem_of_find?_eq_some hfind, List.find?_some (p := (KeyRow.takes · key)) hfind,
      by simp only [decodeKey, hfind]⟩
  | none =>
    have missed := List.find?_eq_none.1 hfind
    exact .inr ⟨missed, decodeKey_of_none_takes missed wdata⟩

/-! ### What a key decodes to (R91-R95) -/

/-- A row keeps the key: the bits it looks at are in the row, the others in the operands. -/
theorem encodeKey_build_of_takes (key : Key) (wdata : Word) :
    ∀ row ∈ keyRows, row.takes key = true → encodeKey (row.build key wdata) = key := by
  have hkey : key.toNat < 2 ^ 17 := key.isLt
  simp only [keyRows, legalKeyRows, errorKeyRows, List.cons_append, List.nil_append, List.forall_mem_cons,
    windowRow_takes_iff, lutRow_takes_iff, registerRow_takes_iff, sizeNarrowRow_takes_iff, sizeReservedRow_takes_iff,
    alignOddRow_takes_iff, alignEvenRow_takes_iff, BitVec.reduceAnd, encodeKey, ← BitVec.toNat_inj, mkKey_toNat,
    windowOffset_toNat, lutOffset_toNat, narrowSize_toNat, Key.isWrite_access, toNat_getLsbD, Key.isWrite_toNat,
    Key.off_toNat, Key.pixelIndex_toNat, Key.lutIndex_toNat]
  simp
  and_intros <;> omega

/-- A decoded key's instruction has that key (R100). -/
@[simp] theorem encodeKey_decodeKey (key : Key) (wdata : Word) : encodeKey (decodeKey key wdata) = key := by
  rcases decodeKey_cases key wdata with ⟨row, hrow, htakes, hd⟩ | ⟨missed, hd⟩
  · rw [hd, encodeKey_build_of_takes key wdata row hrow htakes]
  · have hsize := ((keyRows_none_takes_iff key).1 missed).1
    rw [← BitVec.toNat_inj, Key.size_toNat] at hsize
    rw [hd, encodeKey, ← BitVec.toNat_inj, mkKey_toNat, Key.isWrite_access, Key.isWrite_toNat, Key.off_toNat]
    omega

/-- A row builds a well-formed instruction from a key that it takes and row 18 does not: for row 19 such a key is even. -/
theorem build_wellFormed_of_takes (key : Key) (wdata : Word) (notOdd : ¬ keyRows[18].takes key = true) :
    ∀ row ∈ keyRows, row.takes key = true → (row.build key wdata).wellFormed = true := by
  replace notOdd := mt (alignOddRow_takes_iff _ key).2 notOdd
  simp only [keyRows, legalKeyRows, errorKeyRows, List.cons_append, List.nil_append, List.forall_mem_cons,
    alignOddRow_takes_iff, alignEvenRow_takes_iff, Instr.wellFormed, Bool.and_eq_true, Bool.not_eq_true',
    ← Bool.not_eq_true, getLsbD_eq_true_iff, Key.off_toNat]
  simp
  omega

/-- The decoder gives well-formed instructions only, by whether row 18 takes the key. -/
@[simp] theorem decodeKey_wellFormed (key : Key) (wdata : Word) : (decodeKey key wdata).wellFormed = true := by
  by_cases odd : keyRows[18].takes key = true
  · rw [decodeKey_of_takes (k := ⟨18, by decide⟩) odd (.inl (by decide))]
    have bit := ((alignOddRow_takes_iff _ key).1 odd).2
    show key.off.getLsbD 0 = true
    rw [getLsbD_eq_true_iff, Key.off_toNat]
    omega
  · rcases decodeKey_cases key wdata with ⟨row, hrow, htakes, hd⟩ | ⟨missed, hd⟩
    · rw [hd, build_wellFormed_of_takes key wdata odd row hrow htakes]
    · obtain ⟨-, aligned, unmapped⟩ := (keyRows_none_takes_iff key).1 missed
      rw [hd, Instr.wellFormed, aligned, unmapped, Bool.and_self]

theorem Key.access_cases (key : Key) (wdata : Word) : key.access wdata = .read ∨ key.access wdata = .write wdata := by
  cases h : key.isWrite <;> simp [Key.access, h]

/-- The data word of a decoded transaction is the one on the bus (R91). -/
theorem accessOf_decodeKey_cases (key : Key) (wdata : Word) :
    accessOf (decodeKey key wdata) = .read ∨ accessOf (decodeKey key wdata) = .write wdata := by
  have rows : ∀ row ∈ keyRows,
      accessOf (row.build key wdata) = .read ∨ accessOf (row.build key wdata) = .write wdata := by
    simp [keyRows, legalKeyRows, errorKeyRows, accessOf, Key.access_cases]
  rcases decodeKey_cases key wdata with ⟨row, hrow, -, hd⟩ | ⟨-, hd⟩
  · exact hd ▸ rows row hrow
  · exact hd ▸ key.access_cases wdata

/-! ### The fields of an encoded key -/

section
variable (size : BitVec 2) (w : Bool) (off : Offset)

@[simp] theorem Key.isWrite_mkKey : Key.isWrite (mkKey size w off) = w := by
  have := w.toNat_lt
  rw [Bool.eq_iff_iff, Key.isWrite_iff, mkKey_toNat, ← Bool.toNat_eq_one]
  omega

@[simp] theorem Key.off_mkKey : Key.off (mkKey size w off) = off := by
  rw [← BitVec.toNat_inj, Key.off_toNat, mkKey_toNat]
  omega

@[simp] theorem Key.size_mkKey : Key.size (mkKey size w off) = size := by
  rw [← BitVec.toNat_inj, Key.size_toNat, mkKey_toNat]
  have := w.toNat_lt
  omega

@[simp] theorem Key.pixelIndex_mkKey (window : BitVec 2) (idx : BitVec 10) :
    Key.pixelIndex (mkKey size w (windowOffset window idx)) = idx := by
  rw [← BitVec.toNat_inj, Key.pixelIndex_toNat, mkKey_toNat, windowOffset_toNat]
  omega

@[simp] theorem Key.lutIndex_mkKey (idx : BitVec 8) : Key.lutIndex (mkKey size w (lutOffset idx)) = idx := by
  rw [← BitVec.toNat_inj, Key.lutIndex_toNat, mkKey_toNat, lutOffset_toNat]
  omega

/-- A narrow transaction's lower size bit tells a halfword from a byte. -/
theorem getLsbD_mkKey_narrow (half : Bool) : (mkKey (0#1 ++ BitVec.ofBool half) w off).getLsbD 15 = half := by
  have := w.toNat_lt
  have := half.toNat_lt
  rw [Bool.eq_iff_iff, getLsbD_eq_true_iff, mkKey_toNat, narrowSize_toNat, ← Bool.toNat_eq_one]
  omega

end

/-- The direction of a host transaction is its key's `W` (R91). -/
theorem isWrite_encodeKey {i : Instr} (he : i.isEvent = false) : Key.isWrite (encodeKey i) = (accessOf i).isWrite := by
  cases i <;> simp only [Instr.isEvent, Bool.true_eq_false] at he
  all_goals exact Key.isWrite_mkKey ..

/-- Settles O6: the direction is the `W` bit of the key that the instruction keeps. -/
theorem keyDecodeIsTotalAndLosesNothing : Obligations.KeyDecodeIsTotalAndLosesNothing := by
  intro key wdata
  refine ⟨decodeKey_wellFormed key wdata, Machine.decodeKey_isEvent key wdata, encodeKey_decodeKey key wdata, ?_⟩
  have direction := isWrite_encodeKey (Machine.decodeKey_isEvent key wdata)
  rw [encodeKey_decodeKey] at direction
  simp only [← Key.isWrite_iff, direction]
  rcases accessOf_decodeKey_cases key wdata with h | h <;> simp [h, Access.isWrite]

end Sys2Proof
end

section
/-!
PROOFS. The key of a well-formed host transaction decodes to the transaction (R91-R95).
-/
namespace Sys2Proof

/-- An instruction whose word lies in row `k`, and which that row builds back from its key, decodes to itself, unless it is
row 19 and row 18 takes the key before it. -/
theorem decodeKey_encodeKey_of_row {i : Instr} (k : Fin keyRows.length) {d : Word} (he : i.isEvent = false)
    (hwf : i.wellFormed = true) (hmatch : Laws.RowMatch.Statement i)
    (hrow : Laws.RowMatch.tableRow i = (keyRows[k].mask.setWidth 32, keyRows[k].pattern.setWidth 32))
    (hfirst : k.val ≠ 19 ∨ ¬ keyRows[18].takes (encodeKey i) = true)
    (hbuild : keyRows[k].build (encodeKey i) d = i) : decodeKey (encodeKey i) d = i := by
  have hword := congrArg (BitVec.setWidth 17) (hmatch hwf)
  rw [hrow, encodeWord, he] at hword
  have taken : keyRows[k].takes (encodeKey i) = true := KeyRow.takes_iff.2 (by simpa using hword)
  rw [decodeKey_of_takes taken hfirst, hbuild]

/-- The key of one register decodes by its own row. -/
theorem decodeKey_registerRow (k : Fin keyRows.length) (hmask : keyRows[k].mask = 0x1FFFF#17) (wdata : Word) :
    decodeKey keyRows[k].pattern wdata = keyRows[k].build keyRows[k].pattern wdata := by
  refine decodeKey_of_takes ((KeyRow.takes_iff_eq hmask).2 rfl) (.inl fun h19 => ?_) wdata
  obtain rfl : k = ⟨19, by decide⟩ := Fin.ext h19
  exact absurd hmask (by decide)

/-- The direction and the data word are read back from the key and the bus. -/
theorem Key.access_mkKey {acc : Access} {d : Word} (hd : acc = .read ∨ acc = .write d) (size : BitVec 2)
    (off : Offset) : Key.access (mkKey size acc.isWrite off) d = acc := by
  rcases hd with rfl | rfl <;> simp [Key.access, Access.isWrite]

/-- A row 19 instruction's key is even, so row 18 does not take it (R95). -/
theorem alignOddRow_misses_alignEven {off : Offset} {acc : Access}
    (hwf : (Instr.busErrAlignEven off acc).wellFormed = true) :
    ¬ keyRows[18].takes (encodeKey (.busErrAlignEven off acc)) = true := by
  have even : ¬ off.getLsbD 0 = true := by simpa using (Bool.and_eq_true_iff.1 hwf).2
  refine mt (fun odd => ?_) even
  have bit := ((alignOddRow_takes_iff _ _).1 odd).2
  rw [encodeKey, mkKey_toNat] at bit
  rw [getLsbD_eq_true_iff]
  omega

/-- A well-formed host transaction is read back from its key and its data word, row by row (R93-R95). -/
theorem decodeKey_encodeKey {i : Instr} (he : i.isEvent = false) (hwf : i.wellFormed = true) {d : Word}
    (hd : accessOf i = .read ∨ accessOf i = .write d) : decodeKey (encodeKey i) d = i := by
  cases i <;> simp only [Instr.isEvent, Bool.true_eq_false] at he
  all_goals simp only [accessOf, reduceCtorEq, or_false, false_or, Access.write.injEq] at hd
  -- For a write, the data word on the bus is the operand; the rows that hold an access keep `hd` as it is.
  all_goals try subst hd
  case fbRd idx =>
    exact decodeKey_encodeKey_of_row ⟨0, by decide⟩ rfl rfl (Laws.RowMatch.fbRd idx) rfl (.inl (by decide))
      (congrArg Instr.fbRd (Key.pixelIndex_mkKey ..))
  case fbWr idx w =>
    exact decodeKey_encodeKey_of_row ⟨1, by decide⟩ rfl rfl (Laws.RowMatch.fbWr idx w) rfl (.inl (by decide))
      (congrArg (Instr.fbWr · w) (Key.pixelIndex_mkKey ..))
  case lutRd idx =>
    exact decodeKey_encodeKey_of_row ⟨2, by decide⟩ rfl rfl (Laws.RowMatch.lutRd idx) rfl (.inl (by decide))
      (congrArg Instr.lutRd (Key.lutIndex_mkKey ..))
  case fbgRd idx =>
    exact decodeKey_encodeKey_of_row ⟨3, by decide⟩ rfl rfl (Laws.RowMatch.fbgRd idx) rfl (.inl (by decide))
      (congrArg Instr.fbgRd (Key.pixelIndex_mkKey ..))
  case fbgWr idx w =>
    exact decodeKey_encodeKey_of_row ⟨4, by decide⟩ rfl rfl (Laws.RowMatch.fbgWr idx w) rfl (.inl (by decide))
      (congrArg (Instr.fbgWr · w) (Key.pixelIndex_mkKey ..))
  case ctrlRd => exact decodeKey_registerRow ⟨5, by decide⟩ rfl _
  case ctrlWr => exact decodeKey_registerRow ⟨6, by decide⟩ rfl _
  case statusRd => exact decodeKey_registerRow ⟨7, by decide⟩ rfl _
  case statusWr => exact decodeKey_registerRow ⟨8, by decide⟩ rfl _
  case baseRd => exact decodeKey_registerRow ⟨9, by decide⟩ rfl _
  case baseWr => exact decodeKey_registerRow ⟨10, by decide⟩ rfl _
  case framesRd => exact decodeKey_registerRow ⟨11, by decide⟩ rfl _
  case scanposRd => exact decodeKey_registerRow ⟨12, by decide⟩ rfl _
  case linesRd => exact decodeKey_registerRow ⟨13, by decide⟩ rfl _
  case errcauseRd => exact decodeKey_registerRow ⟨14, by decide⟩ rfl _
  case erraddrRd => exact decodeKey_registerRow ⟨15, by decide⟩ rfl _
  case busErrSizeNarrow half off acc =>
    exact decodeKey_encodeKey_of_row ⟨16, by decide⟩ rfl rfl (Laws.RowMatch.busErrSizeNarrow half off acc) rfl
      (.inl (by decide))
      (congr (congrArg₂ Instr.busErrSizeNarrow (getLsbD_mkKey_narrow ..) (Key.off_mkKey ..)) (Key.access_mkKey hd ..))
  case busErrSizeReserved off acc =>
    exact decodeKey_encodeKey_of_row ⟨17, by decide⟩ rfl rfl (Laws.RowMatch.busErrSizeReserved off acc) rfl
      (.inl (by decide)) (congrArg₂ Instr.busErrSizeReserved (Key.off_mkKey ..) (Key.access_mkKey hd ..))
  case busErrAlignOdd off acc =>
    exact decodeKey_encodeKey_of_row ⟨18, by decide⟩ rfl hwf (Laws.RowMatch.busErrAlignOdd off acc) rfl
      (.inl (by decide)) (congrArg₂ Instr.busErrAlignOdd (Key.off_mkKey ..) (Key.access_mkKey hd ..))
  case busErrAlignEven off acc =>
    exact decodeKey_encodeKey_of_row ⟨19, by decide⟩ rfl hwf (Laws.RowMatch.busErrAlignEven off acc) rfl
      (.inr (alignOddRow_misses_alignEven hwf))
      (congrArg₂ Instr.busErrAlignEven (Key.off_mkKey ..) (Key.access_mkKey hd ..))
  case busErrRoLut idx w =>
    exact decodeKey_encodeKey_of_row ⟨20, by decide⟩ rfl rfl (Laws.RowMatch.busErrRoLut idx w) rfl (.inl (by decide))
      (congrArg (Instr.busErrRoLut · w) (Key.lutIndex_mkKey ..))
  case busErrRoFrames => exact decodeKey_registerRow ⟨21, by decide⟩ rfl _
  case busErrRoScanpos => exact decodeKey_registerRow ⟨22, by decide⟩ rfl _
  case busErrRoLines => exact decodeKey_registerRow ⟨23, by decide⟩ rfl _
  case busErrRoErrcause => exact decodeKey_registerRow ⟨24, by decide⟩ rfl _
  case busErrRoErraddr => exact decodeKey_registerRow ⟨25, by decide⟩ rfl _
  case busErrUnmapped off acc =>
    obtain ⟨aligned, unmapped⟩ := Bool.and_eq_true_iff.1 hwf
    have missed := (keyRows_none_takes_iff (encodeKey (.busErrUnmapped off acc))).2
      ⟨Key.size_mkKey .., (Key.off_mkKey ..).symm ▸ aligned, (Key.off_mkKey ..).symm ▸ unmapped⟩
    rw [decodeKey_of_none_takes missed]
    exact congrArg₂ Instr.busErrUnmapped (Key.off_mkKey ..) (Key.access_mkKey hd ..)

/-- Settles O4: the turn's key or event word decodes to the instruction. -/
theorem encodedInstructionRunsAsTheNextTurn : Obligations.EncodedInstructionRunsAsTheNextTurn := by
  rintro i s turn rest hwf (⟨he, rfl⟩ | ⟨he, d, hd, rfl⟩) ha
  · exact Machine.step_of_event ha (decodeEvent_encodeEvent he)
  · rw [Machine.step_of_host ha, decodeKey_encodeKey he hwf hd]

end Sys2Proof
end

section
/-!
PROOFS. Event decode (R96, R97, R99): the decoded event has the given word, and which words are rejected.
-/
namespace Sys2Proof

/-! ### The fields and the words of events as arithmetic (R96, R97) -/

theorem eventKind_toNat (w : Word) : (eventKind w).toNat = w.toNat / 2 ^ 28 := by
  rw [eventKind, BitVec.extractLsb'_toNat, Nat.shiftRight_eq_div_pow]
  omega

theorem eventRow_toNat (w : Word) : (eventRow w).toNat = w.toNat / 2 ^ 20 % 2 ^ 4 := by
  rw [eventRow, BitVec.extractLsb'_toNat, Nat.shiftRight_eq_div_pow]

theorem eventPlane_toNat (w : Word) : (eventPlane w).toNat = w.toNat / 2 ^ 16 % 2 ^ 3 := by
  rw [eventPlane, BitVec.extractLsb'_toNat, Nat.shiftRight_eq_div_pow]

theorem eventCol_toNat (w : Word) : (eventCol w).toNat = w.toNat / 2 ^ 8 % 2 ^ 5 := by
  rw [eventCol, BitVec.extractLsb'_toNat, Nat.shiftRight_eq_div_pow]

theorem frameStart_toNat (baseu : BitVec 16) : (encodeEvent (.frameStart baseu)).toNat = 1 * 2 ^ 28 + baseu.toNat := by
  rw [encodeEvent, toNat_append_add, toNat_append_add, BitVec.toNat_ofNat, BitVec.toNat_ofNat]
  omega

theorem addr_toNat (row : BitVec 4) : (encodeEvent (.addr row)).toNat = 2 * 2 ^ 28 + row.toNat := by
  rw [encodeEvent, toNat_append_add, toNat_append_add, BitVec.toNat_ofNat, BitVec.toNat_ofNat]
  omega

theorem hold_toNat (dur : BitVec 24) : (encodeEvent (.hold dur)).toNat = 7 * 2 ^ 28 + dur.toNat := by
  rw [encodeEvent, toNat_append_add, toNat_append_add, BitVec.toNat_ofNat, BitVec.toNat_ofNat]
  omega

theorem frameEnd_toNat (count : BitVec 28) : (encodeEvent (.frameEnd count)).toNat = 9 * 2 ^ 28 + count.toNat := by
  rw [encodeEvent, toNat_append_add, BitVec.toNat_ofNat]

theorem color_toNat (row : BitVec 4) (plane : BitVec 3) (col : BitVec 5) (lines6 : BitVec 6) :
    (encodeEvent (.color row plane col lines6)).toNat =
      3 * 2 ^ 28 + row.toNat * 2 ^ 20 + plane.toNat * 2 ^ 16 + col.toNat * 2 ^ 8 + lines6.toNat := by
  rw [encodeEvent, scanEvent_toNat, toNat_append_add, BitVec.toNat_ofNat, BitVec.toNat_ofNat]
  omega

/-! ### What an event word decodes to -/

theorem EventRow.takes_iff {mask pattern : Word} {build : Word → Instr} {w : Word} :
    EventRow.takes ⟨mask, pattern, build⟩ w = true ↔ w &&& mask = pattern := beq_iff_eq

/-- A row keeps the word: the bits it looks at are in the row, the others in the operands. -/
theorem encodeEvent_build_of_takes (w : Word) :
    ∀ row ∈ eventRows, row.takes w = true → encodeEvent (row.build w) = w := by
  have hw : w.toNat < 2 ^ 32 := w.isLt
  simp only [eventRows, List.forall_mem_cons, EventRow.takes_iff, BitVec.reduceAnd,
    and_eq_iff_fields (mask := 0xFFFF0000#32) [(16, 16)] (by decide),
    and_eq_iff_fields (mask := 0xFFFFFFF0#32) [(4, 28)] (by decide),
    and_eq_iff_fields (mask := 0xFF08E0C0#32) [(24, 8), (19, 1), (13, 3), (6, 2)] (by decide),
    and_eq_iff_fields (mask := 0xFF08E0FF#32) [(24, 8), (19, 1), (13, 3), (0, 8)] (by decide),
    and_eq_iff_fields (mask := 0xFF08FFFF#32) [(24, 8), (19, 1), (0, 16)] (by decide),
    and_eq_iff_fields (mask := 0xFF000000#32) [(24, 8)] (by decide),
    and_eq_iff_fields (mask := 0xF0000000#32) [(28, 4)] (by decide)]
  simp only [← BitVec.toNat_inj, frameStart_toNat, addr_toNat, color_toNat, hold_toNat, frameEnd_toNat]
  simp [encodeEvent, scanEvent_toNat, eventRow_toNat, eventPlane_toNat, eventCol_toNat]
  and_intros <;> omega

theorem eventRows_build_isEvent (w : Word) : ∀ row ∈ eventRows, (row.build w).isEvent = true := by
  simp [eventRows, Instr.isEvent]

theorem Instr.wellFormed_of_isEvent {i : Instr} (he : i.isEvent = true) : i.wellFormed = true := by
  cases i <;> simp only [Instr.isEvent, Bool.false_eq_true] at he <;> rfl

/-- An event word is decoded by a row that takes it, or rejected by its kind (R97, R99). -/
theorem decodeEvent_cases (w : Word) :
    (∃ k : Fin eventRows.length, eventRows[k].takes w = true ∧ decodeEvent w = .ok (eventRows[k].build w)) ∨
      decodeEvent w = .reject (if eventKindUsed w then .reservedBits else .reservedKind) := by
  cases hfind : eventRows.find? (fun row => row.takes w) with
  | some row =>
    obtain ⟨htakes, j, hj, rfl, -⟩ := List.find?_eq_some_iff_getElem.1 hfind
    exact .inl ⟨⟨j, hj⟩, htakes, decodeEvent_of_takes (k := ⟨j, hj⟩) htakes⟩
  | none => exact .inr (by simp only [decodeEvent, hfind])

/-- The kind of a word that decodes is one of the nine (R97). -/
theorem eventKindUsed_of_decodeEvent {w : Word} {i : Instr} (h : decodeEvent w = .ok i) : eventKindUsed w = true := by
  rcases decodeEvent_cases w with ⟨k, htakes, -⟩ | hreject
  · have hk : k.val < 9 := k.isLt
    rw [eventKindUsed, eventKind_of_takes htakes, BitVec.toNat_ofNat]
    exact decide_eq_true (by omega)
  · simp [hreject] at h

/-- A rejected word is rejected for its kind or, when the block emits the kind, for its reserved bits (R99). -/
theorem eq_of_decodeEvent_reject {w : Word} {e : DecodeError} (h : decodeEvent w = .reject e) :
    e = if eventKindUsed w then .reservedBits else .reservedKind := by
  rcases decodeEvent_cases w with ⟨k, -, hok⟩ | hreject
  · simp [hok] at h
  · simpa [hreject] using h.symm

theorem eventKindUsed_iff (w : Word) : eventKindUsed w = true ↔ ¬(w.toNat / 2 ^ 28 = 0 ∨ 10 ≤ w.toNat / 2 ^ 28) := by
  rw [eventKindUsed, eventKind_toNat, decide_eq_true_iff]
  omega

/-- Settles O7: the row that decodes the word keeps its bits. -/
theorem eventDecodeLosesNothing : Obligations.EventDecodeLosesNothing := by
  intro w i h
  rcases decodeEvent_cases w with ⟨k, htakes, hok⟩ | hreject
  · obtain rfl : eventRows[k].build w = i := by simpa [hok] using h
    have hrow : eventRows[k] ∈ eventRows := List.getElem_mem k.isLt
    have event := eventRows_build_isEvent w _ hrow
    exact ⟨encodeEvent_build_of_takes w _ hrow htakes, event, Instr.wellFormed_of_isEvent event⟩
  · simp [hreject] at h

/-- Settles O8: a kind that is emitted is never the reason, and a word that decodes is some event's word. -/
theorem reservedEventWordsAreRejected : Obligations.ReservedEventWordsAreRejected := by
  refine ⟨fun w => ?_, fun w => ⟨?_, fun unspelled => ?_⟩⟩
  · rw [← not_iff_not, ← eventKindUsed_iff]
    cases hd : decodeEvent w with
    | ok i => simp [eventKindUsed_of_decodeEvent hd]
    | reject e =>
      rw [eq_of_decodeEvent_reject hd]
      cases eventKindUsed w <;> simp
  · rintro ⟨e, hreject⟩ i he rfl
    simp [decodeEvent_encodeEvent he] at hreject
  · cases hd : decodeEvent w with
    | ok i =>
      obtain ⟨spelled, event, -⟩ := eventDecodeLosesNothing w i hd
      exact absurd spelled (unspelled i event)
    | reject e => exact ⟨e, rfl⟩

end Sys2Proof
end

section
/-!
PROOFS. The bytes of a well-formed instruction decode to it (log entry 13), and the spec's own sample words.
-/
namespace Sys2Proof

/-! ### A key as a word: its bits above the key are 0 -/

section
variable (key : Key)

@[simp] theorem eventKind_setWidth : eventKind (key.setWidth 32) = 0#4 := by
  rw [← BitVec.toNat_inj, eventKind_toNat, BitVec.toNat_setWidth, BitVec.toNat_ofNat]
  omega

@[simp] theorem extractLsb'_high_setWidth : (key.setWidth 32).extractLsb' 17 11 = 0#11 := by
  rw [← BitVec.toNat_inj, BitVec.extractLsb'_toNat, Nat.shiftRight_eq_div_pow, BitVec.toNat_setWidth,
    BitVec.toNat_ofNat]
  omega

@[simp] theorem extractLsb'_low_setWidth : (key.setWidth 32).extractLsb' 0 17 = key := by
  rw [← BitVec.toNat_inj, BitVec.extractLsb'_toNat, Nat.shiftRight_zero, BitVec.toNat_setWidth]
  omega

end

/-! ### Decoding the bytes of a word -/

theorem decode_event {w : Word} {i : Instr} (h : decodeEvent w = .ok i) (rest : List Byte) :
    decode (wordBytes w ++ rest) = .ok (i, rest) := by
  have kind : eventKind w ≠ 0#4 := by
    have used := of_decide_eq_true (eventKindUsed_of_decodeEvent h)
    intro zero
    simp [zero] at used
  simp [wordBytes, decode, Machine.wordOfBytes_wordByte, kind, h]

theorem decode_read {key : Key} (h : key.isWrite = false) (rest : List Byte) :
    decode (wordBytes (key.setWidth 32) ++ rest) = .ok (decodeKey key 0#32, rest) := by
  simp [wordBytes, decode, Machine.wordOfBytes_wordByte, h]

theorem decode_write {key : Key} (h : key.isWrite = true) (wdata : Word) (rest : List Byte) :
    decode (wordBytes (key.setWidth 32) ++ (wordBytes wdata ++ rest)) = .ok (decodeKey key wdata, rest) := by
  simp [wordBytes, decode, Machine.wordOfBytes_wordByte, h]

theorem accessOf_of_isEvent {i : Instr} (he : i.isEvent = true) : accessOf i = .read := by
  cases i <;> simp only [Instr.isEvent, Bool.false_eq_true] at he <;> rfl

/-- Settles O5: an event by its word, a read by its key, a write by its key and the data word that follows. -/
theorem decodeInvertsEncode : Obligations.DecodeInvertsEncode := by
  intro i rest hwf
  cases he : i.isEvent with
  | true =>
    simpa [encode, encodeWord, he, accessOf_of_isEvent he] using decode_event (decodeEvent_encodeEvent he) rest
  | false =>
    have direction := isWrite_encodeKey he
    cases hacc : accessOf i with
    | read =>
      rw [hacc] at direction
      simpa [encode, encodeWord, he, hacc, decodeKey_encodeKey he hwf (.inl hacc)] using decode_read direction rest
    | write wdata =>
      rw [hacc] at direction
      simpa [encode, encodeWord, he, hacc, decodeKey_encodeKey he hwf (.inr hacc)] using
        decode_write direction wdata rest

/-- Settles O10, by running the decoder on each word. -/
theorem sampleWordsDecode : Obligations.SampleWordsDecode := by
  unfold Obligations.SampleWordsDecode
  decide

end Sys2Proof
end

section
/-!
PROOFS. The host's pixel reads and writes through the gamma window (R137, R138) and the gamma table: what it holds is the
exact real power, floored (R130, R134), and the properties of the table follow from that (R132).
-/
namespace Sys2Proof.Machine

open Sys2Proof.Claims

/-! ### Pixel writes: the bytes outside the word, and what changes besides the framebuffer (R137, R151) -/

section
variable (i : Instr) (idx : BitVec 10) (w : Word) (s : State)

theorem writePixel_read_outside {a : Nat} (h : a < 4 * idx.toNat ∨ 4 * idx.toNat + 4 ≤ a) :
    (writePixel i idx w s).mem.read a = s.mem.read a := by
  rw [writePixel_eq]
  exact Memory.read_writeWord_outside _ _ _ _ h

/-- The write is flagged and recorded exactly outside `IDLE`. -/
theorem writePixel_eq_withMem : writePixel i idx w s =
    { s with
        mem := (writePixel i idx w s).mem
        status := { s.status with scanWr := if s.state = .idle then s.status.scanWr else true }
        record := if s.state = .idle then s.record else s.record ++ [⟨.scanWr, i⟩]
        responses := s.responses ++ [.written]
        draws := s.draws + 1 } := by
  rw [writePixel_eq]
  by_cases idle : s.state = .idle <;> simp [State.busy, idle]

end

/-! ### The gamma window (R137, R138) -/

/-- The gamma function on a pixel word as arithmetic (R135). -/
theorem gammaWord_toNat (w : Word) : (gammaWord w).toNat =
    w.toNat / 2 ^ 24 * 2 ^ 24 + (lut (w.extractLsb' 16 8)).toNat * 2 ^ 16 +
      (lut (w.extractLsb' 8 8)).toNat * 2 ^ 8 + (lut (w.extractLsb' 0 8)).toNat := by
  have top : (w.extractLsb' 24 8).toNat = w.toNat / 2 ^ 24 := by
    rw [BitVec.extractLsb'_toNat, Nat.shiftRight_eq_div_pow]
    omega
  unfold gammaWord
  iterate 3 rw [toNat_append_add]
  rw [top]
  ring

/-- Settles O16, by the laws of a pixel write, with the word `gammaWord w`. -/
theorem fbgWriteStoresTheGammaWord : Obligations.FbgWriteStoresTheGammaWord := fun s idx w =>
  ⟨writePixel (.fbgWr idx w) idx (gammaWord w) s, gammaWord w, rfl, gammaWord_toNat w, writePixel_fb _ _ _ _,
    fun _ => writePixel_read_outside _ _ _ _, writePixel_eq_withMem _ _ _ _⟩

/-- Settles O14, by the two cases of a pixel read. -/
theorem fbgReadReturnsTheStoredWord : Obligations.FbgReadReturnsTheStoredWord :=
  ⟨fun s idx w written => congrArg Host.Outcome.next (readPixel_written _ idx s w written),
    fun s idx unwritten => ⟨_, congrArg Host.Outcome.next (readPixel_unwritten _ idx s unwritten)⟩⟩

/-! ### What the gamma table holds (R130, R134) -/

/-- Settles O17: the table is valid in every state. -/
theorem lutReadReturnsTheEntry : Obligations.LutReadReturnsTheEntry := by
  intro s idx
  obtain ⟨r, run, value⟩ := lutValid_all s idx
  exact ⟨r, run, value.trans (lut_toNat idx).symm⟩

/-- Each entry of R131 is the floored power of its index `i`, said in whole numbers, since
`255 * (i/255)^(8/5) = (i^8 / 255^3)^(1/5)`. -/
theorem lutEntries_brackets (i : Nat) (h : i < 256) :
    lutEntries.getD i 0 ^ 5 * 255 ^ 3 ≤ i ^ 8 ∧ i ^ 8 < (lutEntries.getD i 0 + 1) ^ 5 * 255 ^ 3 := by
  obtain ⟨row, hrow, col, hcol, rfl⟩ : ∃ row < 16, ∃ col < 16, i = 16 * row + col :=
    ⟨i / 16, by omega, i % 16, by omega, by omega⟩
  clear h
  revert row col
  decide

/-- An entry is `n` at least where the power is. -/
theorem le_lut_iff (idx : BitVec 8) (n : Nat) : n ≤ (lut idx).toNat ↔ n ^ 5 * 255 ^ 3 ≤ idx.toNat ^ 8 := by
  obtain ⟨lower, upper⟩ := lutEntries_brackets idx.toNat idx.isLt
  rw [lut_toNat]
  constructor
  · intro h
    exact (Nat.mul_le_mul_right _ (Nat.pow_le_pow_left h 5)).trans lower
  · intro h
    have := lt_of_pow_lt_pow_left₀ 5 (Nat.zero_le _) (Nat.lt_of_mul_lt_mul_right (h.trans_lt upper))
    omega

/-- What is at most the real power of R130, by comparing fifth powers. -/
theorem le_gammaPower_iff (i n : Nat) :
    (n : ℝ) ≤ 255 * ((i : ℝ) / 255) ^ (1.6 : ℝ) ↔ n ^ 5 * 255 ^ 3 ≤ i ^ 8 := by
  have fifth : (255 * ((i : ℝ) / 255) ^ (1.6 : ℝ)) ^ 5 = (i : ℝ) ^ 8 / 255 ^ 3 := by
    have exponent : (1.6 : ℝ) * (5 : ℕ) = (8 : ℕ) := by norm_num
    rw [mul_pow, ← Real.rpow_mul_natCast (by positivity), exponent, Real.rpow_natCast, div_pow]
    ring
  rw [← pow_le_pow_iff_left₀ (by positivity) (by positivity) (by decide : 5 ≠ 0), fifth, le_div_iff₀ (by positivity)]
  norm_cast

/-- Settles O18: a whole number is at most the real power exactly when it is at most the entry. -/
theorem lutIsTheFlooredPower : Obligations.LutIsTheFlooredPower := by
  intro idx
  symm
  rw [Int.floor_eq_iff, ← not_le]
  have lower := (le_gammaPower_iff idx.toNat _).2 ((le_lut_iff idx _).1 le_rfl)
  have upper := (le_gammaPower_iff idx.toNat ((lut idx).toNat + 1)).not.2
    ((le_lut_iff idx _).not.1 (Nat.not_succ_le_self _))
  push_cast at lower upper ⊢
  exact ⟨lower, upper⟩

/-! ### The properties of the gamma table (R132) -/

theorem lut_mono {idx idx' : BitVec 8} (h : idx.toNat ≤ idx'.toNat) : (lut idx).toNat ≤ (lut idx').toNat :=
  (le_lut_iff idx' _).2 (((le_lut_iff idx _).1 le_rfl).trans (Nat.pow_le_pow_left h 8))

/-- Where the table passes `n` from one index to the next, it has reached `n` from there on only. -/
theorem le_lut_iff_of_jump {j k : BitVec 8} {n : Nat} (next : k.toNat = j.toNat + 1) (below : (lut j).toNat < n)
    (reached : n ≤ (lut k).toNat) (idx : BitVec 8) : n ≤ (lut idx).toNat ↔ k.toNat ≤ idx.toNat := by
  constructor
  · intro h
    by_contra before
    have := lut_mono (idx := idx) (idx' := j) (by omega)
    omega
  · exact fun h => reached.trans (lut_mono h)

/-- Strictly between 0 and 255 the power stays under its argument. -/
theorem lut_lt {idx : BitVec 8} (hpos : 0 < idx.toNat) (hlt : idx.toNat < 255) : (lut idx).toNat < idx.toNat := by
  rw [← not_le, le_lut_iff, not_le]
  calc idx.toNat ^ 8 = idx.toNat ^ 5 * idx.toNat ^ 3 := by ring
    _ < idx.toNat ^ 5 * 255 ^ 3 := Nat.mul_lt_mul_of_pos_left (Nat.pow_lt_pow_left hlt (by decide)) (by positivity)

theorem lut_le_and_eq_iff (idx : BitVec 8) :
    (lut idx).toNat ≤ idx.toNat ∧ ((lut idx).toNat = idx.toNat ↔ idx = 0#8 ∨ idx = 255#8) := by
  by_cases ends : idx = 0#8 ∨ idx = 255#8
  · obtain rfl | rfl := ends <;> decide
  · have lt : (lut idx).toNat < idx.toNat := by
      have := idx.isLt
      simp only [← BitVec.toNat_inj, BitVec.toNat_ofNat] at ends
      exact lut_lt (by omega) (by omega)
    simp [lt.le, lt.ne, ends]

/-- From `i` to `i + 1` the power rises by at most 2: it is at most its argument there, and `(n + 1) / (n + 3)` is at most
`i^2 / (i + 1)^2`, whose fifth power is below `i^8 / (i + 1)^8`. -/
theorem power_step {n i c : Nat} (hni : n + 2 ≤ i) (h : (n + 3) ^ 5 * c ≤ (i + 1) ^ 8) : (n + 1) ^ 5 * c ≤ i ^ 8 := by
  have ratio : (n + 1) * (i + 1) ^ 2 ≤ (n + 3) * i ^ 2 := by nlinarith
  refine Nat.le_of_mul_le_mul_right ?_ (by positivity : 0 < (i + 1) ^ 10)
  calc (n + 1) ^ 5 * c * (i + 1) ^ 10 = ((n + 1) * (i + 1) ^ 2) ^ 5 * c := by ring
    _ ≤ ((n + 3) * i ^ 2) ^ 5 * c := by gcongr
    _ = (n + 3) ^ 5 * c * i ^ 10 := by ring
    _ ≤ (i + 1) ^ 8 * i ^ 10 := by gcongr
    _ = i ^ 8 * i ^ 2 * (i + 1) ^ 8 := by ring
    _ ≤ i ^ 8 * (i + 1) ^ 2 * (i + 1) ^ 8 := by gcongr; omega
    _ = i ^ 8 * (i + 1) ^ 10 := by ring

theorem lut_step {idx : BitVec 8} (h : idx ≠ 255#8) : (lut (idx + 1#8)).toNat ≤ (lut idx).toNat + 2 := by
  have next : (idx + 1#8).toNat = idx.toNat + 1 := by
    have := idx.isLt
    rw [ne_eq, ← BitVec.toNat_inj, BitVec.toNat_ofNat] at h
    rw [BitVec.toNat_add, BitVec.toNat_ofNat]
    omega
  by_contra! risen
  have under := (lut_le_and_eq_iff (idx + 1#8)).1
  have above := (le_lut_iff _ _).1 risen
  rw [next] at under above
  have := (le_lut_iff idx _).2 (power_step (by omega) above)
  omega

/-- Settles O19: the ends by their entries, the entries 0 and 1 by where the table reaches 1 and 2. -/
theorem lutIsMonotoneWithFixedEnds : Obligations.LutIsMonotoneWithFixedEnds := by
  have one := le_lut_iff_of_jump (j := 7#8) (k := 8#8) (n := 1) rfl (by decide) (by decide)
  have two := le_lut_iff_of_jump (j := 12#8) (k := 13#8) (n := 2) rfl (by decide) (by decide)
  simp only [BitVec.toNat_ofNat] at one two
  refine ⟨fun _ _ => lut_mono, by decide, by decide, lut_le_and_eq_iff, fun i => ?_, fun i => ?_, fun _ => lut_step⟩
  · rw [← BitVec.toNat_inj, BitVec.toNat_ofNat]
    have := one i
    omega
  · rw [← BitVec.toNat_inj, BitVec.toNat_ofNat]
    have := one i
    have := two i
    omega

end Sys2Proof.Machine
end

section
/-!
PROOFS. The host's pixel reads and writes through the framebuffer window (R150, R151).
-/
namespace Sys2Proof.Machine

/-- A word write puts the word's four bytes at its address, little-endian (R65). -/
theorem Memory.read_writeWord_byte (m : Memory) (a : Nat) (w : Word) {k : Nat} (hk : k < 4) :
    (m.writeWord a w).read (a + k) = some (wordByte w k) := by
  rw [Memory.read_writeWord]
  interval_cases k <;> simp

theorem writePixel_read_byte (i : Instr) (idx : BitVec 10) (w : Word) (s : State) {k : Nat} (hk : k < 4) :
    (writePixel i idx w s).mem.read (4 * idx.toNat + k) = some (w.extractLsb' (8 * k) 8) := by
  rw [writePixel_eq]
  exact Memory.read_writeWord_byte _ _ _ hk

/-- Settles O15, by the laws of a pixel write, with the word as it is. -/
theorem fbWriteStoresTheWord : Obligations.FbWriteStoresTheWord := fun s idx w =>
  ⟨writePixel (.fbWr idx w) idx w s, rfl, writePixel_fb _ _ _ _, fun _ => writePixel_read_byte _ _ _ _,
    fun _ => writePixel_read_outside _ _ _ _, writePixel_eq_withMem _ _ _ _⟩

/-- Settles O13, by the two cases of a pixel read. -/
theorem fbReadReturnsTheWord : Obligations.FbReadReturnsTheWord :=
  ⟨fun s idx w written => congrArg Host.Outcome.next (readPixel_written _ idx s w written),
    fun s idx unwritten => ⟨_, congrArg Host.Outcome.next (readPixel_unwritten _ idx s unwritten)⟩⟩

end Sys2Proof.Machine
end

section
/-!
PROOFS. The `ROW` step drives the row on the address lines, and the lines read back as that row (R180, R181).
-/
namespace Sys2Proof.Machine

/-- The four address lines as a number (R181). -/
theorem Lines.address_toNat (l : Lines) :
    l.address.toNat = 8 * l.addr3.toNat + 4 * l.addr2.toNat + 2 * l.addr1.toNat + l.addr0.toNat := by
  unfold Lines.address
  iterate 3 rw [toNat_append_add]
  simp only [BitVec.toNat_ofBool]
  ring

/-- `LINES` shows the address lines in bits 3:0 (R39). -/
theorem State.linesWord_mod_sixteen (s : State) : s.linesWord.toNat % 16 = s.lines.address.toNat := by
  have := s.lines.address.isLt
  rw [State.linesWord_toNat]
  rw [Lines.address_toNat] at this ⊢
  omega

theorem encodeEvent_addr (row : BitVec 4) : encodeEvent (.addr row) = BitVec.ofNat 32 (0x20000000 + row.toNat) := by
  have := row.isLt
  rw [← BitVec.toNat_inj, addr_toNat, BitVec.toNat_ofNat]
  omega

/-- At `ROW` the engine's next step is `ADDR` with the present row (R23, R180). -/
theorem exec_addr_of_row {s : State} (h : s.state = .row) : exec (.addr s.s) s = .next s.rowStep :=
  (engineStep_next _ _ _ _).2 ⟨by simp [State.engineNext, h], rfl⟩

/-- Settles O36: the lines after the step show the row as their address, which is also what `LINES` shows. -/
theorem rowStepDrivesTheAddress : Obligations.RowStepDrivesTheAddress := by
  intro s hrow
  have address : s.rowStep.lines.address = s.s := Lines.address_drive s.lines s.s
  refine ⟨s.rowStep, Config.stepDuration s.draws, exec_addr_of_row hrow, ?_, ?_, ?_⟩
  · rw [State.rowStep_eq, encodeEvent_addr]
    rfl
  · rw [← Lines.address_toNat, address]
  · rw [State.linesWord_mod_sixteen, address]

end Sys2Proof.Machine
end

section
/-!
PROOFS. The column driver's micro-operations: the eight planes of a pixel (R191), the `COL` step (R190) and the `CLK` step
(R194).
-/
namespace Sys2Proof.Machine

open Sys2Proof.Claims

/-! ### The eight planes of a pixel (R191) -/

/-- The low `n` bits of a number, weighted, are the number modulo `2^n`. -/
theorem sum_bits_mul_two_pow (m n : Nat) : ∑ i ∈ Finset.range n, m / 2 ^ i % 2 * 2 ^ i = m % 2 ^ n := by
  induction n with
  | zero => simp [Nat.mod_one]
  | succ n ih => rw [Finset.sum_range_succ, ih, Nat.mod_pow_succ, mul_comm]

/-- The eight bits of a word from bit `k` on, weighted, are the byte at `k`. -/
theorem sum_byte_bits (w : Word) (k : Nat) :
    ∑ p : Fin 8, (w.getLsbD (k + (BitVec.ofNat 3 p.val).toNat)).toNat * 2 ^ p.val = w.toNat / 2 ^ k % 2 ^ 8 := by
  have bit : ∀ p : Fin 8, (w.getLsbD (k + (BitVec.ofNat 3 p.val).toNat)).toNat = w.toNat / 2 ^ k / 2 ^ p.val % 2 := by
    intro p
    rw [BitVec.toNat_ofNat, Nat.mod_eq_of_lt p.isLt, toNat_getLsbD, pow_add, Nat.div_div_eq_div_mul]
  simp only [bit]
  rw [Fin.sum_univ_eq_sum_range (fun p => w.toNat / 2 ^ k / 2 ^ p % 2 * 2 ^ p), sum_bits_mul_two_pow]

/-- Settles O20: each channel is the byte at bit 0, 8 or 16 of its word. -/
theorem planesOfAPixelSumToItsChannels : Obligations.PlanesOfAPixelSumToItsChannels := by
  intro top bot
  have low : ∀ w : Word,
      ∑ p : Fin 8, (w.getLsbD (BitVec.ofNat 3 p.val).toNat).toNat * 2 ^ p.val = w.toNat % 256 := fun w => by
    simpa using sum_byte_bits w 0
  exact ⟨low top, sum_byte_bits top 8, sum_byte_bits top 16, low bot, sum_byte_bits bot 8, sum_byte_bits bot 16⟩

/-! ### The event word of a scan position (R96) -/

theorem scanEvent_eq_scanWord (kind row : BitVec 4) (plane : BitVec 3) (col : BitVec 5) (low : BitVec 8) :
    scanEvent kind row plane col low = scanWord kind.toNat row.toNat plane.toNat col.toNat low.toNat :=
  BitVec.eq_of_toNat_eq (by
    rw [scanWord, BitVec.toNat_ofNat, ← scanEvent_toNat, Nat.mod_eq_of_lt (BitVec.isLt _)])

/-! ### The `COL` step (R190) -/

/-- The model's index of the top pixel is `32*s + x`. -/
theorem topIndex_eq_topPixel (s : State) : topIndex s.s s.x = topPixel s :=
  BitVec.eq_of_toNat_eq (by
    simp only [topIndex, pixelIndex, topPixel, toNat_append_add, BitVec.toNat_ofNat]
    omega)

/-- The model's index of the bottom pixel is `32*(s + 16) + x`. -/
theorem bottomIndex_eq_bottomPixel (s : State) : bottomIndex s.s s.x = bottomPixel s :=
  BitVec.eq_of_toNat_eq (by
    simp only [bottomIndex, pixelIndex, bottomPixel, toNat_append_add, BitVec.toNat_ofNat]
    omega)

theorem State.columnColours_eq_columnLines (s : State) :
    s.columnColours = columnLines (s.pixel (topPixel s)) (s.pixel (bottomPixel s)) s.p.toNat := by
  rw [← topIndex_eq_topPixel, ← bottomIndex_eq_bottomPixel]
  rfl

theorem State.columnWritten_iff (s : State) :
    s.columnWritten = true ↔ (s.fb (topPixel s)).isSome ∧ (s.fb (bottomPixel s)).isSome := by
  rw [State.columnWritten, Bool.and_eq_true, topIndex_eq_topPixel, bottomIndex_eq_bottomPixel]

/-- A written word is what a read of it gives. -/
theorem State.pixel_of_fb {s : State} {idx : BitVec 10} {w : Word} (h : s.fb idx = some w) : s.pixel idx = w := by
  rw [State.pixel, h, Option.getD_some]

/-- At `COL` the engine's next step is `COLOR` with the present column's colours (R23, R190). -/
theorem exec_color_of_col {s : State} (h : s.state = .col) :
    exec (.color s.s s.p s.x s.columnColours.bits) s = .next s.colStep :=
  (engineStep_next _ _ _ _).2 ⟨by simp [State.engineNext, h], rfl⟩

/-- Settles O37, with the two words the step reads. -/
theorem colStepDrivesTheColumn : Obligations.ColStepDrivesTheColumn := by
  intro s hcol
  have lines : s.columnColours.bits.toNat = lines6 s.columnColours := Colours.bits_toNat _
  have word : encodeEvent (.color s.s s.p s.x s.columnColours.bits) =
      scanWord 3 s.s.toNat s.p.toNat s.x.toNat s.columnColours.bits.toNat := by
    rw [encodeEvent, scanEvent_eq_scanWord, toNat_append_add]
    simp
  refine ⟨s.pixel (topPixel s), s.pixel (bottomPixel s), s.columnColours.bits, Config.stepDuration s.draws,
    fun w => State.pixel_of_fb, fun w => State.pixel_of_fb, ?_, ?_⟩
  · rw [lines, State.columnColours_eq_columnLines]
  · rw [exec_color_of_col hcol, State.colStep_eq, word, ← State.columnColours_eq_columnLines]
    simp only [State.columnWritten_iff, emitted]

/-! ### The `CLK` step (R194) -/

/-- At `CLK` the engine's next step is `CLK` with the present counters (R23, R194). -/
theorem exec_clk_of_clk {s : State} (h : s.state = .clk) : exec (.clk s.s s.p s.x) s = .next s.clkStep :=
  (engineStep_next _ _ _ _).2 ⟨by simp [State.engineNext, h], rfl⟩

/-- Settles O38, by the clock pulse's shift entry by entry (R321). -/
theorem clkStepShiftsThePanel : Obligations.ClkStepShiftsThePanel := by
  intro s hclk
  have next : s.x + 1#5 = BitVec.ofNat 5 (s.x.toNat + 1) := BitVec.eq_of_toNat_eq (by simp)
  refine ⟨shiftIn s.shiftReg s.lines.colours, Config.stepDuration s.draws, ?_,
    fun k => (shiftIn_get _ _ _).trans (dif_pos (Nat.succ_lt_succ k.isLt)),
    (shiftIn_get _ _ _).trans (dif_neg (by decide))⟩
  rw [exec_clk_of_clk hclk, State.clkStep_eq, encodeEvent, scanEvent_eq_scanWord, next]
  rfl

end Sys2Proof.Machine
end

section
/-!
PROOFS. One bit-plane of a row-pair: 32 columns, each a `COL` and a `CLK` step, and the latch load the panel's output
register with exactly that plane (R192, R194, R214, R321).
-/
namespace Sys2Proof.Machine

open Sys2Proof.Claims

/-! ### Runs of several steps (R12) -/

/-- A run begins with its first step. -/
theorem run_succ {M : Host.Core} {s t : M.State} (h : M.step s = .next t) (k : Nat) : M.run (k + 1) s = M.run k t := by
  simp only [Host.Core.run, h]

/-- A run goes on from the state it has reached. -/
theorem run_add {M : Host.Core} {m : Nat} {s t : M.State} (h : M.run m s = .next t) (k : Nat) :
    M.run (m + k) s = M.run k t := by
  induction m generalizing s with
  | zero =>
    cases h
    rw [Nat.zero_add]
  | succ m ih =>
    rw [Nat.succ_add]
    cases hs : M.step s with
    | next u =>
      rw [run_succ hs] at h ⊢
      exact ih h
    | fault r => simp [Host.Core.run, hs] at h
    | refused r => simp [Host.Core.run, hs] at h

/-! ### The engine's turn at `COL`, `CLK` and `LAT`, with no other turn waiting -/

/-- At `LAT` the engine's next step is `LAT` with the present counters (R23, R214). -/
theorem exec_lat_of_lat {s : State} (h : s.state = .lat) : exec (.lat s.s s.p) s = .next s.latStep :=
  (engineStep_next _ _ _ _).2 ⟨by simp [State.engineNext, h], rfl⟩

section
variable {s : State} (alone : s.agenda = [])
include alone

theorem step_of_engineNext {i : Instr} (h : s.engineNext = some i) : step s = exec i s :=
  step_of_fetch_run ((State.fetch_of_empty alone).trans (State.fetchEngine_of_engineNext h))

theorem step_of_col (h : s.state = .col) : step s = .next s.colStep :=
  (step_of_engineNext alone (by rw [State.engineNext, h])).trans (exec_color_of_col h)

theorem step_of_clk (h : s.state = .clk) : step s = .next s.clkStep :=
  (step_of_engineNext alone (by rw [State.engineNext, h])).trans (exec_clk_of_clk h)

theorem step_of_lat (h : s.state = .lat) : step s = .next s.latStep :=
  (step_of_engineNext alone (by rw [State.engineNext, h])).trans (exec_lat_of_lat h)

end

/-! ### What a plane pass leaves alone -/

/-- The state with everything blotted out that a `COL`, `CLK` or `LAT` step over written words may change: two states
with the same image agree in all the rest. -/
def State.besidesPass (s : State) : State :=
  { s with
      state := .idle
      x := 0#5
      lines := { s.lines with colours := .low, clk := false, lat := false }
      shiftReg := Vector.replicate 32 .low
      outReg := Vector.replicate 32 .low
      t := 0
      trace := []
      draws := 0 }

theorem State.colStep_besidesPass {s : State} (written : s.columnWritten = true) :
    s.colStep.besidesPass = s.besidesPass := by
  rw [State.colStep_eq, if_pos written]
  rfl

theorem State.clkStep_besidesPass (s : State) : s.clkStep.besidesPass = s.besidesPass := by
  rw [State.clkStep_eq]
  rfl

theorem State.latStep_besidesPass (s : State) : s.latStep.besidesPass = s.besidesPass := by
  rw [State.latStep_eq]
  rfl

/-! ### The colours of a column, when every word is written -/

/-- What the `COL` step drives at column `x` (R190). -/
def State.coloursAt (s : State) (x : BitVec 5) : Colours := State.columnColours { s with x := x }

theorem State.columnWritten_of_allWritten {s : State} (h : s.allWritten) : s.columnWritten = true :=
  (State.columnWritten_iff s).2 ⟨h _, h _⟩

section
variable {s t : State} (written : s.allWritten) (same : t.besidesPass = s.besidesPass)
include same

theorem State.fb_of_besidesPass (idx : BitVec 10) : t.fb idx = s.fb idx :=
  (congrArg (State.fb · idx) same :)

include written

theorem State.pixel_of_besidesPass (idx : BitVec 10) : t.pixel idx = s.pixel idx := by
  obtain ⟨w, hw⟩ := Option.isSome_iff_exists.1 (written idx)
  rw [State.pixel_of_fb hw, State.pixel_of_fb ((State.fb_of_besidesPass same idx).trans hw)]

/-- A pass drives the same colours at a column whenever it comes to it. -/
theorem State.columnColours_of_besidesPass : t.columnColours = s.coloursAt t.x := by
  have row : t.s = s.s := (congrArg State.s same :)
  have plane : t.p = s.p := (congrArg State.p same :)
  simp only [State.coloursAt, State.columnColours, State.pixel_of_besidesPass written same, row, plane]
  rfl

end

/-- The colours at column `k` are bit `p` of the channels of its two pixels (R190). -/
theorem State.coloursAt_eq_columnLines {s : State} {k : Nat} (hk : k < 32) {top bot : Word}
    (htop : s.fb (BitVec.ofNat 10 (32 * s.s.toNat + k)) = some top)
    (hbot : s.fb (BitVec.ofNat 10 (32 * (s.s.toNat + 16) + k)) = some bot) :
    s.coloursAt (BitVec.ofNat 5 k) = columnLines top bot s.p.toNat := by
  have column : (BitVec.ofNat 5 k).toNat = k := by rw [BitVec.toNat_ofNat, Nat.mod_eq_of_lt hk]
  rw [State.coloursAt, State.columnColours_eq_columnLines]
  simp only [topPixel, bottomPixel, column]
  rw [State.pixel_of_fb (s := { s with x := BitVec.ofNat 5 k }) htop,
    State.pixel_of_fb (s := { s with x := BitVec.ofNat 5 k }) hbot]

/-! ### Column after column (R192, R194) -/

/-- `t` is reached from `s` by `n` columns of the plane: the last `n` entries of the shift register are their colours. -/
structure State.ColumnsPassed (s t : State) (n : Nat) : Prop where
  same : t.besidesPass = s.besidesPass
  state : t.state = if n = 32 then .lat else .col
  x : t.x = BitVec.ofNat 5 (min n 31)
  time : s.t ≤ t.t
  events : t.trace.length = s.trace.length + 2 * n
  shifted : ∀ (k : Fin 32) (j : Nat), k + n = 32 + j → t.shiftReg[k] = s.coloursAt (BitVec.ofNat 5 j)

/-- One column more. -/
theorem State.ColumnsPassed.next {s t : State} {n : Nat} (written : s.allWritten) (h : s.ColumnsPassed t n) (hn : n < 32) :
    s.ColumnsPassed t.colStep.clkStep (n + 1) := by
  have writtenNow : t.allWritten := fun idx => by rw [State.fb_of_besidesPass h.same]; exact written idx
  have colours : t.columnColours = s.coloursAt (BitVec.ofNat 5 n) := by
    rw [State.columnColours_of_besidesPass written h.same, h.x, min_eq_left (by omega)]
  have last : t.x = 31#5 ↔ n = 31 := by
    rw [h.x, ← BitVec.toNat_inj, BitVec.toNat_ofNat, BitVec.toNat_ofNat]
    omega
  exact {
    same := by
      rw [State.clkStep_besidesPass, State.colStep_besidesPass (State.columnWritten_of_allWritten writtenNow), h.same]
    state := by simp [State.clkStep_eq, State.colStep_eq, last]
    x := by
      simp only [State.clkStep_eq, State.colStep_eq, last]
      split_ifs with hlast
      · rw [h.x, hlast]
        rfl
      · rw [h.x, min_eq_left (by omega), min_eq_left (by omega), BitVec.ofNat_add]
    time := by
      have := h.time
      simp only [State.clkStep_t, State.colStep_t]
      omega
    events := by
      simp only [State.clkStep_trace, State.colStep_trace, List.length_append, List.length_singleton, h.events]
      omega
    shifted := by
      intro k j hj
      simp only [State.clkStep_eq, State.colStep_eq]
      rw [shiftIn_get, colours]
      split_ifs with hinner
      · exact h.shifted ⟨k + 1, hinner⟩ j (by change k.val + 1 + n = 32 + j; omega)
      · rw [show j = n by omega] }

/-- `2 * n` engine steps pass `n` columns. -/
theorem State.run_columns {s : State} (alone : s.agenda = []) (hcol : s.state = .col) (hx : s.x = 0#5)
    (written : s.allWritten) : ∀ n ≤ 32, ∃ t : State, core.run (2 * n) s = .next t ∧ s.ColumnsPassed t n := by
  intro n
  induction n with
  | zero => exact fun _ => ⟨s, rfl, rfl, hcol, hx, le_rfl, rfl, by omega⟩
  | succ n ih =>
    intro hn
    obtain ⟨t, run, passed⟩ := ih (by omega)
    have atCol : t.state = .col := passed.state.trans (if_neg (by omega))
    have aloneNow : t.agenda = [] := (congrArg State.agenda passed.same :).trans alone
    refine ⟨t.colStep.clkStep, ?_, passed.next written hn⟩
    calc core.run (2 * n + 2) s = core.run 2 t := run_add run 2
      _ = core.run 1 t.colStep := run_succ (step_of_col aloneNow atCol) 1
      _ = core.run 0 t.colStep.clkStep :=
        run_succ (step_of_clk (by rw [State.colStep_eq]; exact aloneNow) (by rw [State.colStep_eq])) 0

/-! ### The pass and its latch (R214) -/

/-- `t` is reached from `s` by one pass of its plane: each column of the output register holds its colours. The pass takes
no negative time (R41). -/
structure State.PlanePassed (s t : State) : Prop where
  same : t.besidesPass = s.besidesPass
  state : t.state = .enon
  x : t.x = 31#5
  time : s.t ≤ t.t
  events : t.trace.length = s.trace.length + 65
  latched : ∀ k : Fin 32, t.outReg[k] = s.coloursAt (BitVec.ofNat 5 k)

/-- 65 engine steps pass the plane and latch it. -/
theorem State.run_plane {s : State} (alone : s.agenda = []) (hcol : s.state = .col) (hx : s.x = 0#5)
    (written : s.allWritten) : ∃ t : State, core.run 65 s = .next t ∧ s.PlanePassed t := by
  obtain ⟨t, run, passed⟩ := State.run_columns alone hcol hx written 32 le_rfl
  have aloneNow : t.agenda = [] := (congrArg State.agenda passed.same :).trans alone
  refine ⟨t.latStep, (run_add run 1).trans (run_succ (step_of_lat aloneNow passed.state) 0),
    t.latStep_besidesPass.trans passed.same, rfl, passed.x,
    passed.time.trans (Nat.le_add_right _ _), ?_, fun k => passed.shifted k k (by omega)⟩
  rw [State.latStep_trace, List.length_append, passed.events, List.length_singleton]

/-- Settles O57, by the plane pass and the colours of each column. -/
theorem planePassLoadsTheOutputRegister : Obligations.PlanePassLoadsTheOutputRegister := by
  intro s alone hcol hx written
  obtain ⟨t, run, passed⟩ := State.run_plane alone hcol hx written
  have row : t.s = s.s := (congrArg State.s passed.same :)
  have plane : t.p = s.p := (congrArg State.p passed.same :)
  refine ⟨t, run, ?_, (congrArg State.mem passed.same :), (congrArg State.on passed.same :),
    (congrArg State.record passed.same :), passed.events,
    fun k top bot htop hbot => (passed.latched k).trans (State.coloursAt_eq_columnLines k.isLt htop hbot)⟩
  rw [position, passed.state, row, plane, passed.x]
  rfl

end Sys2Proof.Machine
end

section
/-!
PROOFS. The scan engine step by step: what a frame start, `LAT`, `ENON`, `HOLD`, `ENOFF` and `FEND` do (R211-R220), where
each step moves the sequencer (R222), and that no host transaction reaches the lines, the panel or the time (R218, R300).
-/
namespace Sys2Proof.Machine

open Sys2Proof.Claims

/-! ### Event words as arithmetic (R96, R97) -/

theorem encodeEvent_frameStart (baseu : BitVec 16) :
    encodeEvent (.frameStart baseu) = BitVec.ofNat 32 (0x10000000 + baseu.toNat) := by
  have := baseu.isLt
  rw [← BitVec.toNat_inj, frameStart_toNat, BitVec.toNat_ofNat]
  omega

theorem encodeEvent_hold (dur : BitVec 24) : encodeEvent (.hold dur) = BitVec.ofNat 32 (0x70000000 + dur.toNat) := by
  have := dur.isLt
  rw [← BitVec.toNat_inj, hold_toNat, BitVec.toNat_ofNat]
  omega

theorem encodeEvent_frameEnd (count : BitVec 28) :
    encodeEvent (.frameEnd count) = BitVec.ofNat 32 (0x90000000 + count.toNat) := by
  have := count.isLt
  rw [← BitVec.toNat_inj, frameEnd_toNat, BitVec.toNat_ofNat]
  omega

theorem encodeEvent_lat (row : BitVec 4) (plane : BitVec 3) :
    encodeEvent (.lat row plane) = scanWord 5 row.toNat plane.toNat 0 0 := scanEvent_eq_scanWord _ _ _ _ _

theorem encodeEvent_enOn (row : BitVec 4) (plane : BitVec 3) :
    encodeEvent (.enOn row plane) = scanWord 6 row.toNat plane.toNat 0 0 := scanEvent_eq_scanWord _ _ _ _ _

theorem encodeEvent_enOff (row : BitVec 4) (plane : BitVec 3) :
    encodeEvent (.enOff row plane) = scanWord 8 row.toNat plane.toNat 0 0 := scanEvent_eq_scanWord _ _ _ _ _

/-! ### The engine's next step from `ENON` on (R23) -/

theorem exec_enOn_of_enon {s : State} (h : s.state = .enon) : exec (.enOn s.s s.p) s = .next s.enonStep :=
  (engineStep_next _ _ _ _).2 ⟨by rw [State.engineNext, h], rfl⟩

theorem exec_hold_of_hold {s : State} (h : s.state = .hold) :
    exec (.hold (weight s.baseAct s.p)) s = .next s.holdStep :=
  (engineStep_next _ _ _ _).2 ⟨by rw [State.engineNext, h], rfl⟩

theorem exec_enOff_of_enoff {s : State} (h : s.state = .enoff) : exec (.enOff s.s s.p) s = .next s.enoffStep :=
  (engineStep_next _ _ _ _).2 ⟨by rw [State.engineNext, h], rfl⟩

theorem exec_frameEnd_of_fend {s : State} (h : s.state = .fend) :
    exec (.frameEnd ((s.frames + 1#32).extractLsb' 0 28)) s = .next s.fendStep :=
  (engineStep_next _ _ _ _).2 ⟨by rw [State.engineNext, h], rfl⟩

/-! ### The frame start (R211, R251) -/

/-- Settles O34, by the arithmetic of the event word. -/
theorem frameStartLatchesTheUnit : Obligations.FrameStartLatchesTheUnit := by
  intro s hidle
  rw [execFrameStart_idle ⟨hidle, rfl⟩, emitted, ← encodeEvent_frameStart]
  rfl

/-- Settles O35: storing the enables that are already there changes nothing, so the `GO` starts the frame of the same state. -/
theorem frameStartEqualsGoKeepingTheEnables : Obligations.FrameStartEqualsGoKeepingTheEnables := by
  intro s w hidle hgo hframe herr
  refine ⟨s.startFrame.nextDraw, execFrameStart_idle ⟨hidle, rfl⟩, ?_⟩
  calc execCtrlWr w s = .next s.startFrame.acknowledge := by
        rw [execCtrlWr_eq, if_pos hgo, if_pos hidle, hframe, herr]
    _ = _ := rfl

/-! ### `LAT`, `ENON` and `HOLD` (R214-R216) -/

/-- Settles O39, by the event word of the scan position. -/
theorem latStepLatchesThePanel : Obligations.LatStepLatchesThePanel := by
  intro s hlat
  refine ⟨Config.stepDuration s.draws, ?_⟩
  rw [exec_lat_of_lat hlat, State.latStep_eq, encodeEvent_lat, emitted]

/-- Settles O40, by the event word of the scan position. -/
theorem enonStepEnablesTheDisplay : Obligations.EnonStepEnablesTheDisplay := by
  intro s henon
  rw [exec_enOn_of_enon henon, State.enonStep_eq, encodeEvent_enOn, emitted]

theorem weight_eq_ofNat (base : BitVec 16) (p : BitVec 3) : weight base p = BitVec.ofNat 24 (base.toNat * 2 ^ p.toNat) := by
  rw [← weight_toNat, BitVec.ofNat_toNat, BitVec.setWidth_eq]

/-- Settles O41: the new on-time is that of `light_on`, dark or lit. -/
theorem holdStepLightsForTheWeight : Obligations.HoldStepLightsForTheWeight := by
  rintro s d hhold rfl
  refine ⟨(s.light (s.baseAct.toNat * 2 ^ s.p.toNat)).on, ?_, fun dark => ?_, fun lit r c a ha => ?_⟩
  · rw [← weight_eq_ofNat, exec_hold_of_hold hhold, State.holdStep_eq, encodeEvent_hold, weight_toNat]
  · simp [State.light, dark]
  · rw [light_on, if_pos lit, ← ha]
    rfl

/-! ### Where each step moves the sequencer (R222) -/

theorem position_rowStep (s : State) : position s.rowStep = transition .row s.s.toNat s.p.toNat s.x.toNat := rfl

theorem position_colStep (s : State) : position s.colStep = transition .col s.s.toNat s.p.toNat s.x.toNat := by
  rw [State.colStep_eq]
  rfl

theorem position_clkStep (s : State) : position s.clkStep = transition .clk s.s.toNat s.p.toNat s.x.toNat := by
  have := s.x.isLt
  rw [State.clkStep_eq]
  by_cases last : s.x = 31#5
  · simp [position, transition, last]
  · rw [← BitVec.toNat_inj, BitVec.toNat_ofNat] at last
    have inner : s.x.toNat < 31 := by omega
    have next : (s.x.toNat + 1) % 32 = s.x.toNat + 1 := by omega
    simp [position, transition, ← BitVec.toNat_inj, last, inner, next]

theorem position_latStep (s : State) : position s.latStep = transition .lat s.s.toNat s.p.toNat s.x.toNat := rfl

theorem position_enonStep (s : State) : position s.enonStep = transition .enon s.s.toNat s.p.toNat s.x.toNat := rfl

theorem position_holdStep (s : State) : position s.holdStep = transition .hold s.s.toNat s.p.toNat s.x.toNat := by
  rw [State.holdStep_eq]
  rfl

theorem position_enoffStep (s : State) : position s.enoffStep = transition .enoff s.s.toNat s.p.toNat s.x.toNat := by
  have := s.p.isLt
  have := s.s.isLt
  unfold State.enoffStep
  split_ifs with plane row <;> simp only [ne_eq, ← BitVec.toNat_inj, BitVec.toNat_ofNat] at plane
  · have inner : s.p.toNat < 7 := by omega
    have next : (s.p.toNat + 1) % 8 = s.p.toNat + 1 := by omega
    simp [position, transition, inner, next]
  · rw [ne_eq, ← BitVec.toNat_inj, BitVec.toNat_ofNat] at row
    have last : ¬s.p.toNat < 7 := by omega
    have inner : s.s.toNat < 15 := by omega
    have next : (s.s.toNat + 1) % 16 = s.s.toNat + 1 := by omega
    simp [position, transition, last, inner, next]
  · rw [not_not] at row
    have last : ¬s.p.toNat < 7 := by omega
    simp [position, transition, last, row]

theorem position_fendStep (s : State) : position s.fendStep = transition .fend s.s.toNat s.p.toNat s.x.toNat := rfl

/-- Settles O45, by the position the engine is at. -/
theorem sequencerFollowsTheTransitionTable : Obligations.SequencerFollowsTheTransitionTable := by
  refine ⟨fun s busy => ?_, fun s => (State.engineNext_eq_none_iff s).2, fun s w hidle hgo => ?_⟩
  · rw [State.engineNext]
    cases hs : s.state with
    | idle => exact absurd hs busy
    | row => exact ⟨_, _, rfl, exec_addr_of_row hs, position_rowStep s⟩
    | col => exact ⟨_, _, rfl, exec_color_of_col hs, position_colStep s⟩
    | clk => exact ⟨_, _, rfl, exec_clk_of_clk hs, position_clkStep s⟩
    | lat => exact ⟨_, _, rfl, exec_lat_of_lat hs, position_latStep s⟩
    | enon => exact ⟨_, _, rfl, exec_enOn_of_enon hs, position_enonStep s⟩
    | hold => exact ⟨_, _, rfl, exec_hold_of_hold hs, position_holdStep s⟩
    | enoff => exact ⟨_, _, rfl, exec_enOff_of_enoff hs, position_enoffStep s⟩
    | fend => exact ⟨_, _, rfl, exec_frameEnd_of_fend hs, position_fendStep s⟩
  · exact ⟨_, (execCtrlWr_eq w s).trans (by rw [if_pos hgo, if_pos hidle]), rfl⟩

/-! ### `ENOFF` and `FEND` (R219, R220) -/

/-- The parts of a position that is known. -/
theorem position_eq_iff (s : State) (q : SeqState) (row plane col : Nat) :
    position s = (q, row, plane, col) ↔ s.state = q ∧ s.s.toNat = row ∧ s.p.toNat = plane ∧ s.x.toNat = col := by
  simp only [position, Prod.mk.injEq]

/-- Settles O42: the frame of the step, and the row of the transition table for each of its three ends. -/
theorem enoffStepBlanksAndAdvances : Obligations.EnoffStepBlanksAndAdvances := by
  intro s henoff
  have moved := position_enoffStep s
  refine ⟨s.enoffStep, exec_enOff_of_enoff henoff, ?_, fun inner => ?_, fun last inner => ?_, fun last ended => ?_⟩
  · rw [emitted, ← encodeEvent_enOff]
    exact State.enoffStep_eq s
  · simp only [transition, if_pos inner, position_eq_iff] at moved
    obtain ⟨state, row, plane, col⟩ := moved
    exact ⟨state, BitVec.eq_of_toNat_eq row, plane, BitVec.eq_of_toNat_eq col⟩
  · simp only [transition, last, lt_irrefl, if_false, if_pos inner, position_eq_iff] at moved
    obtain ⟨state, row, plane, col⟩ := moved
    exact ⟨state, row, BitVec.eq_of_toNat_eq plane, BitVec.eq_of_toNat_eq col⟩
  · simp only [transition, last, ended, lt_irrefl, if_false, position_eq_iff] at moved
    obtain ⟨state, row, plane, col⟩ := moved
    exact ⟨state, BitVec.eq_of_toNat_eq (row.trans ended.symm), BitVec.eq_of_toNat_eq (plane.trans last.symm),
      BitVec.eq_of_toNat_eq col⟩

/-- Settles O43: the count wraps at 32 bits and the event keeps its low 28. -/
theorem fendStepCompletesTheFrame : Obligations.FendStepCompletesTheFrame := by
  intro s hfend
  refine ⟨(s.frames + 1#32).extractLsb' 0 28, s.frames + 1#32, Config.stepDuration s.draws, ?_, ?_, ?_⟩
  · rw [BitVec.toNat_add, BitVec.toNat_ofNat]
  · rw [BitVec.extractLsb'_toNat, Nat.shiftRight_zero]
  · rw [exec_frameEnd_of_fend hfend, State.fendStep_eq, encodeEvent_frameEnd, emitted]

/-! ### What a host transaction leaves alone (R218, R300) -/

/-- Settles O46, by the shapes of a host transaction. -/
theorem hostStepsLeaveLinesPanelAndTime : Obligations.HostStepsLeaveLinesPanelAndTime := by
  intro i s t he h
  rcases exec_host_cases he h with ⟨idx, -, rfl⟩ | ⟨idx, w, v, -, rfl⟩ | ⟨-, -, r, rfl⟩ | ⟨c, -, rfl⟩ |
    ⟨w, -, rfl⟩ | ⟨w, -, rfl⟩ | ⟨w, -, hw⟩
  · rw [readPixel_frame]
    simp
  · rw [writePixel_eq]
    simp
  · simp
  · simp
  · simp
  · simp
  · rw [execCtrlWr_eq] at hw
    injection hw with hw
    subst hw
    split_ifs <;> simp

end Sys2Proof.Machine
end

section
/-!
PROOFS. One lit plane and one frame: `ENON`, `HOLD` and `ENOFF` enable the display for exactly the plane's weight (R217), and
the 16 row-pairs of 8 planes light every pixel for exactly `BASE_ACT` times its value (R221, R223, R227, R322).
-/
namespace Sys2Proof.Machine

open Sys2Proof.Claims

/-! ### The engine's turn, with no other turn waiting -/

section
variable {s : State} (alone : s.agenda = [])
include alone

theorem step_of_row (h : s.state = .row) : step s = .next s.rowStep :=
  (step_of_engineNext alone (by rw [State.engineNext, h])).trans (exec_addr_of_row h)

theorem step_of_enon (h : s.state = .enon) : step s = .next s.enonStep :=
  (step_of_engineNext alone (by rw [State.engineNext, h])).trans (exec_enOn_of_enon h)

theorem step_of_hold (h : s.state = .hold) : step s = .next s.holdStep :=
  (step_of_engineNext alone (by rw [State.engineNext, h])).trans (exec_hold_of_hold h)

theorem step_of_enoff (h : s.state = .enoff) : step s = .next s.enoffStep :=
  (step_of_engineNext alone (by rw [State.engineNext, h])).trans (exec_enOff_of_enoff h)

theorem step_of_fend (h : s.state = .fend) : step s = .next s.fendStep :=
  (step_of_engineNext alone (by rw [State.engineNext, h])).trans (exec_frameEnd_of_fend h)

end

/-! ### The display enabled for one plane (R217) -/

/-- What `ENON`, `HOLD` and `ENOFF` make of a state. -/
def State.lightPlane (s : State) : State := s.enonStep.holdStep.enoffStep

theorem State.run_lightPlane {s : State} (alone : s.agenda = []) (henon : s.state = .enon) :
    core.run 3 s = .next s.lightPlane := by
  have aloneAtEnoff : s.enonStep.holdStep.agenda = [] := by rw [State.holdStep_eq]; exact alone
  calc core.run 3 s = core.run 2 s.enonStep := run_succ (step_of_enon alone henon) 2
    _ = core.run 1 s.enonStep.holdStep := run_succ (step_of_hold (s := s.enonStep) alone rfl) 1
    _ = core.run 0 s.lightPlane := run_succ (step_of_enoff aloneAtEnoff rfl) 0

/-- All but the position it moves to: the display is on for the weight, and dark again. -/
theorem State.lightPlane_eq (s : State) : s.lightPlane =
    { s with
      state := s.lightPlane.state
      s := s.lightPlane.s
      p := s.lightPlane.p
      x := s.lightPlane.x
      lines := { s.lines with en := false }
      on := (s.enonStep.light (weight s.baseAct s.p).toNat).on
      t := s.t + (weight s.baseAct s.p).toNat
      trace := s.trace ++ [⟨encodeEvent (.enOn s.s s.p), s.t⟩] ++
        [⟨encodeEvent (.hold (weight s.baseAct s.p)), s.t + (weight s.baseAct s.p).toNat⟩] ++
        [⟨encodeEvent (.enOff s.s s.p), s.t + (weight s.baseAct s.p).toNat⟩]
      draws := s.draws + 3 } := by
  rw [State.lightPlane, State.enoffStep_eq, State.holdStep_eq]
  rfl

theorem position_lightPlane (s : State) :
    position s.lightPlane = transition .enoff s.s.toNat s.p.toNat s.x.toNat := by
  rw [State.lightPlane, position_enoffStep, State.holdStep_eq]
  rfl

/-- Settles O56, by what the three steps change. -/
theorem holdLastsExactlyTheWeight : Obligations.HoldLastsExactlyTheWeight := by
  rintro s d alone henon rfl
  refine ⟨s.lightPlane, State.run_lightPlane alone henon, ?_, ?_, ?_⟩
  · rw [State.lightPlane_eq, weight_toNat]
  · rw [State.lightPlane_eq]
  · rw [State.lightPlane_eq, encodeEvent_enOn, encodeEvent_hold, encodeEvent_enOff, weight_toNat, List.append_assoc,
      List.append_assoc]
    rfl

/-! ### What the scan leaves alone -/

/-- The state with everything blotted out that the engine's steps before `FEND` may change, over written words: two states
with the same image agree in all the rest. -/
def State.besidesScan (s : State) : State :=
  { s.besidesPass with
      s := 0#4
      p := 0#3
      lines := .low
      on := Vector.replicate 32 (Vector.replicate 32 ⟨0, 0, 0⟩) }

theorem State.rowStep_besidesScan (s : State) : s.rowStep.besidesScan = s.besidesScan := rfl

theorem State.lightPlane_besidesScan (s : State) : s.lightPlane.besidesScan = s.besidesScan := by
  rw [State.lightPlane_eq]
  rfl

section
variable {s t : State}

theorem State.besidesScan_of_besidesPass (same : t.besidesPass = s.besidesPass) : t.besidesScan = s.besidesScan :=
  (congrArg State.besidesScan same :)

variable (same : t.besidesScan = s.besidesScan)
include same

theorem State.agenda_of_besidesScan : t.agenda = s.agenda := (congrArg State.agenda same :)
theorem State.baseAct_of_besidesScan : t.baseAct = s.baseAct := (congrArg State.baseAct same :)
theorem State.mem_of_besidesScan : t.mem = s.mem := (congrArg State.mem same :)
theorem State.frames_of_besidesScan : t.frames = s.frames := (congrArg State.frames same :)
theorem State.record_of_besidesScan : t.record = s.record := (congrArg State.record same :)
theorem State.fb_of_besidesScan (idx : BitVec 10) : t.fb idx = s.fb idx := (congrArg (State.fb · idx) same :)

theorem State.allWritten_of_besidesScan (written : s.allWritten) : t.allWritten := fun idx => by
  rw [State.fb_of_besidesScan same]
  exact written idx

end

/-! ### One plane of a row-pair, shifted in and lit (R322) -/

/-- `ENOFF` moves to another row only by way of `ROW`, so the address lines stay stable (R182). -/
theorem State.enoffStep_addressStable {s : State} (h : s.lines.address = s.s) : s.enoffStep.addressStable := by
  unfold State.enoffStep
  split_ifs
  · exact .inr h
  · exact .inl rfl
  · exact .inr h

/-- `t` is reached from `s` by shifting its plane in and lighting it for the plane's weight. -/
structure State.PlaneShown (s t : State) : Prop where
  same : t.besidesScan = s.besidesScan
  moved : position t = transition .enoff s.s.toNat s.p.toNat 31
  dark : t.lines.en = false
  address : t.addressStable
  time : s.t + s.baseAct.toNat * 2 ^ s.p.toNat ≤ t.t
  events : t.trace.length = s.trace.length + 68
  lit : ∀ r c : Fin 32, t.on[r][c] =
    lightPixel s.s.toNat (s.baseAct.toNat * 2 ^ s.p.toNat) (s.coloursAt (BitVec.ofNat 5 c)) r s.on[r][c]

/-- 68 engine steps show the plane. -/
theorem State.run_planeShown {s : State} (alone : s.agenda = []) (hcol : s.state = .col) (hx : s.x = 0#5)
    (written : s.allWritten) (stable : s.lines.address = s.s) :
    ∃ t : State, core.run 68 s = .next t ∧ s.PlaneShown t := by
  obtain ⟨u, run, passed⟩ := State.run_plane alone hcol hx written
  have row : u.s = s.s := (congrArg State.s passed.same :)
  have plane : u.p = s.p := (congrArg State.p passed.same :)
  have unit : u.baseAct = s.baseAct := (congrArg State.baseAct passed.same :)
  have on : u.on = s.on := (congrArg State.on passed.same :)
  have address : u.lines.address = s.s := (congrArg (fun v : State => v.lines.address) passed.same :).trans stable
  have aloneNow : u.agenda = [] := (congrArg State.agenda passed.same :).trans alone
  have enabled : u.enonStep.lines.en = true := rfl
  exact ⟨u.lightPlane, (run_add run 3).trans (State.run_lightPlane aloneNow passed.state), {
    same := u.lightPlane_besidesScan.trans (State.besidesScan_of_besidesPass passed.same)
    moved := by
      rw [position_lightPlane, row, plane, passed.x]
      rfl
    dark := by rw [State.lightPlane_eq]
    address := State.enoffStep_addressStable (by
      rw [State.holdStep_eq]
      exact address.trans row.symm)
    time := by
      rw [State.lightPlane_eq, weight_toNat, unit, plane]
      exact Nat.add_le_add_right passed.time _
    events := by
      rw [State.lightPlane_eq]
      simp only [List.length_append, List.length_singleton, passed.events]
    lit := fun r c => by
      rw [State.lightPlane_eq, weight_toNat, light_on, if_pos enabled, unit, plane, ← passed.latched c, ← on]
      exact congrArg (fun a : BitVec 4 => lightPixel a.toNat _ _ _ _) address }⟩

/-! ### The light of the planes shown so far (R223) -/

/-- The on-time after the first `n` planes of a pixel of value `v`: `base` ticks for each unit of the channels' low `n`
bits. -/
def OnTime.withPlanes (o : OnTime) (base : Nat) (v : Word) (n : Nat) : OnTime :=
  ⟨o.a + base * (v.toNat / 2 ^ 0 % 2 ^ n), o.b + base * (v.toNat / 2 ^ 8 % 2 ^ n),
    o.c + base * (v.toNat / 2 ^ 16 % 2 ^ n)⟩

theorem OnTime.withPlanes_zero (o : OnTime) (base : Nat) (v : Word) : o.withPlanes base v 0 = o := by
  simp [OnTime.withPlanes, Nat.mod_one]

/-- A plane's bit brings its weight if it is 1. -/
theorem ticks_succ (v : Word) (base k n : Nat) :
    base * (v.toNat / 2 ^ k % 2 ^ n) + (if v.getLsbD (k + n) then base * 2 ^ n else 0) =
      base * (v.toNat / 2 ^ k % 2 ^ (n + 1)) := by
  simp only [getLsbD_eq_true_iff]
  rw [pow_add, ← Nat.div_div_eq_div_mul, Nat.mod_pow_succ, Nat.mul_add]
  rcases Nat.mod_two_eq_zero_or_one (v.toNat / 2 ^ k / 2 ^ n) with bit | bit <;> simp [bit]

/-- Plane `n` lit for its weight is one plane more. -/
theorem OnTime.lit_withPlanes (o : OnTime) (base : Nat) (v : Word) (n : Nat) :
    (o.withPlanes base v n).lit (base * 2 ^ n) (v.getLsbD (0 + n)) (v.getLsbD (8 + n)) (v.getLsbD (16 + n)) =
      o.withPlanes base v (n + 1) := by
  simp only [OnTime.lit, OnTime.withPlanes, Nat.add_assoc, ticks_succ]

/-- How many planes of the pixels of row `r` have been shown when `row` row-pairs are complete, and `n` planes of the
next. -/
def planesShown (row n r : Nat) : Nat := if r % 16 < row then 8 else if r % 16 = row then n else 0

/-- A hold lights the rows of the present row-pair, each pixel by the bits of its own word (R190, R322). -/
theorem State.lightPixel_coloursAt {t : State} (written : t.allWritten) {r c : Fin 32} {v : Word}
    (hv : t.fb (BitVec.ofNat 10 (32 * r.val + c.val)) = some v) (d : Nat) (o : OnTime) :
    lightPixel t.s.toNat d (t.coloursAt (BitVec.ofNat 5 c)) r o =
      if r.val % 16 = t.s.toNat then
        o.lit d (v.getLsbD (0 + t.p.toNat)) (v.getLsbD (8 + t.p.toNat)) (v.getLsbD (16 + t.p.toNat))
      else o := by
  have := t.s.isLt
  obtain ⟨top, htop⟩ := Option.isSome_iff_exists.1 (written (BitVec.ofNat 10 (32 * t.s.toNat + c.val)))
  obtain ⟨bot, hbot⟩ := Option.isSome_iff_exists.1 (written (BitVec.ofNat 10 (32 * (t.s.toNat + 16) + c.val)))
  rw [State.coloursAt_eq_columnLines c.isLt htop hbot, lightPixel, Nat.zero_add]
  by_cases upper : r.val = t.s.toNat
  · obtain rfl : top = v := Option.some.inj (htop.symm.trans (upper ▸ hv))
    rw [if_pos upper, if_pos (by omega)]
    rfl
  · rw [if_neg upper]
    by_cases lower : r.val = t.s.toNat + 16
    · obtain rfl : bot = v := Option.some.inj (hbot.symm.trans (lower ▸ hv))
      rw [if_pos lower, if_pos (by omega)]
      rfl
    · rw [if_neg lower, if_neg (by omega)]

/-! ### Plane after plane, row-pair after row-pair (R221, R222) -/

/-- `t` is reached from the frame's first row `s` by `k` engine steps, with `row` row-pairs complete and `n` planes of the
next. -/
structure State.Scanned (s t : State) (row n k : Nat) : Prop where
  run : core.run k s = .next t
  same : t.besidesScan = s.besidesScan
  address : t.addressStable
  dark : t.state = .fend → t.lines.en = false
  time : s.t + s.baseAct.toNat * (255 * row + (2 ^ n - 1)) ≤ t.t
  events : t.trace.length = s.trace.length + k
  lit : ∀ (r c : Fin 32) (v : Word), s.fb (BitVec.ofNat 10 (32 * r.val + c.val)) = some v →
    t.on[r][c] = s.on[r][c].withPlanes s.baseAct.toNat v (planesShown row n r)

theorem State.scanned_start {s : State} (hrow : s.state = .row) : s.Scanned s 0 0 0 where
  run := rfl
  same := rfl
  address := .inl hrow
  dark := fun hfend => by simp [hrow] at hfend
  time := le_rfl
  events := rfl
  lit := fun r c v _ => by simp [planesShown, OnTime.withPlanes_zero]

section
variable {s t : State} {row n k : Nat} (alone : s.agenda = [])
include alone

/-- The `ROW` step drives the row-pair's address and lights nothing (R180). -/
theorem State.Scanned.addressRow (h : s.Scanned t row n k) (hrow : t.state = .row) :
    s.Scanned t.rowStep row n (k + 1) where
  run := (run_add h.run 1).trans (run_succ (step_of_row ((State.agenda_of_besidesScan h.same).trans alone) hrow) 0)
  same := t.rowStep_besidesScan.trans h.same
  address := .inr (Lines.address_drive _ _)
  dark := nofun
  time := h.time.trans (Nat.le_add_right _ _)
  events := by
    rw [State.rowStep_trace, List.length_append, h.events, List.length_singleton, Nat.add_assoc]
  lit := h.lit

variable (written : s.allWritten)
include written

/-- One plane more. -/
theorem State.Scanned.showPlane (h : s.Scanned t row n k) (ht : position t = (.col, row, n, 0)) :
    ∃ u, s.Scanned u row (n + 1) (k + 68) ∧ position u = transition .enoff row n 31 := by
  obtain ⟨hcol, rfl, rfl, hx⟩ := (position_eq_iff _ _ _ _ _).1 ht
  have unit : t.baseAct = s.baseAct := State.baseAct_of_besidesScan h.same
  have writtenNow : t.allWritten := State.allWritten_of_besidesScan h.same written
  obtain ⟨u, run, shown⟩ := State.run_planeShown ((State.agenda_of_besidesScan h.same).trans alone) hcol
    (BitVec.eq_of_toNat_eq hx) writtenNow (h.address.resolve_left (by simp [hcol]))
  refine ⟨u, ?_, shown.moved⟩
  exact {
    run := (run_add h.run 68).trans run
    same := shown.same.trans h.same
    address := shown.address
    dark := fun _ => shown.dark
    time := by
      have sofar := h.time
      have plane := shown.time
      have ticks : 255 * t.s.toNat + (2 ^ (t.p.toNat + 1) - 1) =
          255 * t.s.toNat + (2 ^ t.p.toNat - 1) + 2 ^ t.p.toNat := by
        have := Nat.one_le_two_pow (n := t.p.toNat)
        rw [pow_succ]
        omega
      rw [unit] at plane
      rw [ticks, Nat.mul_add]
      omega
    events := by rw [shown.events, h.events, Nat.add_assoc]
    lit := fun r c v hv => by
      have hvNow := (State.fb_of_besidesScan h.same _).trans hv
      rw [shown.lit, State.lightPixel_coloursAt writtenNow hvNow, h.lit r c v hv, unit]
      by_cases present : r.val % 16 = t.s.toNat
      · simp only [planesShown, present, lt_irrefl, if_true, if_false, OnTime.lit_withPlanes]
      · simp only [planesShown, present, if_false] }

/-- The planes of a row-pair, from the first (R219). -/
theorem State.Scanned.showPlanes (h : s.Scanned t row 0 k) (ht : position t = (.col, row, 0, 0)) :
    ∀ m ≤ 7, ∃ u, s.Scanned u row m (k + 68 * m) ∧ position u = (.col, row, m, 0) := by
  intro m
  induction m with
  | zero => exact fun _ => ⟨t, h, ht⟩
  | succ m ih =>
    intro hm
    obtain ⟨u, scanned, hu⟩ := ih (by omega)
    obtain ⟨w, next, hw⟩ := scanned.showPlane alone written hu
    exact ⟨w, next, hw.trans (if_pos (by omega))⟩

/-- All eight planes of a row-pair take 545 steps and complete it. -/
theorem State.Scanned.showRow (h : s.Scanned t row 0 k) (ht : position t = (.row, row, 0, 0)) :
    ∃ u, s.Scanned u (row + 1) 0 (k + 545) ∧ position u = transition .enoff row 7 31 := by
  obtain ⟨hrow, hs, hp, hx⟩ := (position_eq_iff _ _ _ _ _).1 ht
  have atCol : position t.rowStep = (.col, row, 0, 0) := by rw [position_rowStep, hs, hp, hx]; rfl
  obtain ⟨u, seven, hu⟩ := (h.addressRow alone hrow).showPlanes alone written atCol 7 le_rfl
  obtain ⟨w, eight, hw⟩ := seven.showPlane alone written hu
  have complete : ∀ r, planesShown row 8 r = planesShown (row + 1) 0 r := by
    intro r
    unfold planesShown
    split_ifs <;> omega
  exact ⟨w, { eight with
    time := by simpa [Nat.mul_add] using eight.time
    lit := by simpa only [complete] using eight.lit }, hw⟩

/-- The row-pairs of a frame, from the first (R219). -/
theorem State.scan_rows (ht : position s = (.row, 0, 0, 0)) :
    ∀ m ≤ 15, ∃ u, s.Scanned u m 0 (545 * m) ∧ position u = (.row, m, 0, 0) := by
  intro m
  induction m with
  | zero => exact fun _ => ⟨s, State.scanned_start ((position_eq_iff _ _ _ _ _).1 ht).1, ht⟩
  | succ m ih =>
    intro hm
    obtain ⟨u, scanned, hu⟩ := ih (by omega)
    obtain ⟨w, next, hw⟩ := scanned.showRow alone written hu
    exact ⟨w, next, hw.trans (if_pos (by omega))⟩

end

/-! ### The frame (R223) -/

/-- Settles O58: 16 row-pairs of 545 steps, and the `FEND` step. -/
theorem frameGivesEachPixelItsExactLight : Obligations.FrameGivesEachPixelItsExactLight := by
  intro s alone hs written
  obtain ⟨t, fifteen, ht⟩ := State.scan_rows alone written hs 15 le_rfl
  obtain ⟨u, scanned, hu⟩ := fifteen.showRow alone written ht
  obtain ⟨hfend, hrow, hplane, hcol⟩ := (position_eq_iff _ _ _ _ _).1 hu
  refine ⟨u.fendStep,
    (run_add scanned.run 1).trans
      (run_succ (step_of_fend ((State.agenda_of_besidesScan scanned.same).trans alone) hfend) 0),
    ?_, ?_, rfl, (State.mem_of_besidesScan scanned.same :),
    (State.record_of_besidesScan scanned.same :), scanned.dark hfend,
    ?_, ?_, fun r c v hv => ?_⟩
  · rw [position_fendStep, hrow, hplane, hcol]
    rfl
  · rw [State.fendStep_eq, State.frames_of_besidesScan scanned.same]
  · rw [State.fendStep_trace, List.length_append, scanned.events, List.length_singleton]
  · have := scanned.time
    rw [State.fendStep_t]
    omega
  · have all : planesShown 16 0 r = 8 := if_pos (Nat.mod_lt _ (by decide))
    rw [State.fendStep_eq]
    simpa [all, OnTime.withPlanes] using scanned.lit r c v hv

end Sys2Proof.Machine
end

section
/-!
PROOFS. The control and status registers: the words their reads answer, as arithmetic on the fields (R252, R255-R258, R260,
R261), and what `CTRL_WR`, `STATUS_WR` and `BASE_WR` store (R251, R253, R254).
-/
namespace Sys2Proof.Machine

open Sys2Proof.Claims

/-! ### `CTRL` (R251, R255) -/

theorem State.ctrlWord_toNat (s : State) : s.ctrlWord.toNat = 4 * s.ctrl.ieErr.toNat + 2 * s.ctrl.ieFrame.toNat := by
  unfold State.ctrlWord
  iterate 3 rw [toNat_append_add]
  simp only [BitVec.toNat_ofBool, BitVec.toNat_ofNat]
  ring

/-- Settles O21, by the arithmetic of the word. -/
theorem ctrlReadReturnsTheEnables : Obligations.CtrlReadReturnsTheEnables :=
  fun s => ⟨s.ctrlWord, rfl, s.ctrlWord_toNat⟩

/-- Settles O22: the branches of `CTRL_WR` are no `GO`, a `GO` in `IDLE`, which emits the frame's event word, and a `GO`
inside a frame. -/
theorem ctrlWriteSetsEnablesAndGoes : Obligations.CtrlWriteSetsEnablesAndGoes := by
  intro s w
  have run : exec (.ctrlWr w) s = _ := execCtrlWr_eq w s
  refine ⟨fun noGo => ?_, fun go idle => ?_, fun go busy => ?_⟩
  · rw [run, if_neg (Bool.eq_false_iff.1 noGo)]
    rfl
  · rw [run, if_pos go, if_pos idle, emitted, ← encodeEvent_frameStart]
    rfl
  · rw [run, if_pos go, if_neg busy]
    rfl

/-! ### `STATUS` (R252, R253) -/

theorem State.statusWord_toNat (s : State) : s.statusWord.toNat =
    s.busy.toNat + 2 * s.status.frameDone.toNat + 4 * s.status.scanWr.toNat + 8 * s.status.goIgn.toNat +
      16 * s.status.busErr.toNat := by
  unfold State.statusWord
  iterate 5 rw [toNat_append_add]
  simp only [BitVec.toNat_ofBool, BitVec.toNat_ofNat]
  ring

theorem State.busy_toNat (s : State) : s.busy.toNat = if s.state = .idle then 0 else 1 := by
  by_cases idle : s.state = .idle <;> simp [State.busy, idle]

/-- Settles O23, by the arithmetic of the word and of its `BUSY` bit. -/
theorem statusReadAssemblesTheFlags : Obligations.StatusReadAssemblesTheFlags := by
  refine fun s => ⟨s.statusWord, rfl, ?_⟩
  rw [State.statusWord_toNat, State.busy_toNat]

/-- A written 1 clears its flag and a written 0 keeps it (R253). -/
theorem Status.clear_eq (f : Status) (w : Word) : f.clear w =
    { frameDone := if w.getLsbD 1 then false else f.frameDone
      scanWr := if w.getLsbD 2 then false else f.scanWr
      goIgn := if w.getLsbD 3 then false else f.goIgn
      busErr := if w.getLsbD 4 then false else f.busErr } := by
  have flag (old clear : Bool) : (old && !clear) = if clear then false else old := by cases clear <;> simp
  simp only [Status.clear, flag]

/-- Settles O24, by the four flags of the cleared status. -/
theorem statusWriteClearsTheWrittenOnes : Obligations.StatusWriteClearsTheWrittenOnes := by
  intro s w
  rw [← Status.clear_eq]
  rfl

/-! ### `BASE` (R254, R256) -/

/-- Settles O25: the unit keeps its value in a word. -/
theorem baseReadReturnsTheProgrammedUnit : Obligations.BaseReadReturnsTheProgrammedUnit :=
  fun s => ⟨s.base.setWidth 32, rfl, BitVec.toNat_setWidth_of_le (by decide)⟩

/-- The stored unit as arithmetic (R254, V9). -/
theorem baseOfData_toNat (w : Word) :
    (baseOfData w).toNat = if w.toNat % 65536 = 0 then 1 else w.toNat % 65536 := by
  have low : (w.extractLsb' 0 16).toNat = w.toNat % 65536 := by rw [BitVec.extractLsb'_toNat, Nat.shiftRight_zero]
  have zero : w.extractLsb' 0 16 = 0#16 ↔ w.toNat % 65536 = 0 := by
    rw [← BitVec.toNat_inj, low, BitVec.toNat_ofNat]
  simp only [baseOfData, zero]
  split
  · rfl
  · exact low

/-- Settles O26, by the arithmetic of the stored unit. -/
theorem baseWriteStoresAnyUnitButZero : Obligations.BaseWriteStoresAnyUnitButZero :=
  fun _ w => ⟨baseOfData w, rfl, baseOfData_toNat w⟩

/-! ### `FRAMES` and `SCANPOS` (R257, R258) -/

/-- Settles O27: the count is a word, and is answered as it is. -/
theorem framesReadReturnsTheCount : Obligations.FramesReadReturnsTheCount := fun _ => rfl

theorem State.scanposWord_toNat (s : State) : s.scanposWord.toNat =
    s.state.code.toNat * 2 ^ 24 + s.s.toNat * 2 ^ 16 + s.p.toNat * 2 ^ 8 + s.x.toNat := by
  unfold State.scanposWord
  iterate 7 rw [toNat_append_add]
  simp only [BitVec.toNat_ofNat]
  ring

/-- Settles O28, by the arithmetic of the word and the code of each position. -/
theorem scanposReadReturnsThePosition : Obligations.ScanposReadReturnsThePosition := by
  refine fun s => ⟨s.scanposWord, rfl, ?_⟩
  rw [State.scanposWord_toNat]
  cases s.state <;> rfl

/-! ### `ERRCAUSE` and `ERRADDR` (R260, R261) -/

/-- Settles O30: the cause and the key keep their values in a word. -/
theorem errorRegistersReadBack : Obligations.ErrorRegistersReadBack :=
  fun s => ⟨⟨s.errCause.setWidth 32, rfl, BitVec.toNat_setWidth_of_le (by decide)⟩,
    ⟨s.errKey.setWidth 32, rfl, BitVec.toNat_setWidth_of_le (by decide)⟩⟩

end Sys2Proof.Machine
end

section
/-!
PROOFS. The cause of a transaction's bus error, as the priority of R292 gives it from the key: it is that of the row of
R94 and R95 the transaction belongs to (R290).
-/
namespace Sys2Proof

open Sys2Proof.Machine Sys2Proof.Claims

/-! ### A key and its offset as arithmetic (R63, R64, R91) -/

/-- A key by its fields is the key as arithmetic (R91). -/
theorem mkKey_eq_keyOf (size : BitVec 2) (w : Bool) (off : Offset) :
    mkKey size w off = keyOf size.toNat w off.toNat := by
  rw [keyOf, ← mkKey_toNat, BitVec.ofNat_toNat, BitVec.setWidth_eq]

theorem Offset.aligned_iff (off : Offset) : off.aligned = true ↔ off.toNat % 4 = 0 := by
  rw [Offset.aligned, beq_iff_eq, ← BitVec.toNat_inj, BitVec.extractLsb'_toNat, Nat.shiftRight_zero]
  rfl

theorem Offset.unmapped_iff (off : Offset) : off.unmapped = true ↔
    0x1400 ≤ off.toNat ∧ off.toNat < 0x2000 ∨ 0x2020 ≤ off.toNat ∧ off.toNat < 0x3000 := by
  simp only [Offset.unmapped, Bool.or_eq_true, Bool.and_eq_true, decide_eq_true_eq]

/-! ### The priority, field by field (R290, R292) -/

section
variable (size : BitVec 2) (w : Bool) (off : Offset)

theorem mkKey_toNat_size : (mkKey size w off).toNat / 2 ^ 15 = size.toNat := by
  have := w.toNat_lt
  rw [mkKey_toNat]
  omega

theorem mkKey_toNat_off : (mkKey size w off).toNat % 2 ^ 14 = off.toNat := by
  rw [mkKey_toNat]
  omega

/-- A transaction that is no word access is refused as `SIZE`, whatever else is wrong with it. -/
theorem causeOf_mkKey_of_size (h : size.toNat ≠ 2) : causeOf (mkKey size w off) = some 1#3 :=
  if_pos (by rwa [mkKey_toNat_size])

/-- A word access off the word grid is refused as `ALIGN`, wherever it goes. -/
theorem causeOf_mkKey_of_unaligned (h : off.toNat % 4 ≠ 0) : causeOf (mkKey 0b10#2 w off) = some 2#3 := by
  simp only [causeOf, mkKey_toNat_size, mkKey_toNat_off]
  rw [if_neg (by decide), if_pos h]

/-- An aligned word access is `UNMAPPED` in a reserved range of R64, `RO_WRITE` for a write where one may only read, else
legal. -/
theorem causeOf_mkKey_of_aligned (h : off.toNat % 4 = 0) : causeOf (mkKey 0b10#2 w off) =
    if 0x1400 ≤ off.toNat ∧ off.toNat < 0x2000 ∨ 0x2020 ≤ off.toNat ∧ off.toNat < 0x3000 then some 3#3
    else if w = true ∧ (0x1000 ≤ off.toNat ∧ off.toNat < 0x1400 ∨ 0x200C ≤ off.toNat ∧ off.toNat < 0x2020) then
      some 4#3
    else none := by
  have direction : (mkKey 0b10#2 w off).toNat / 2 ^ 14 % 2 = 1 ↔ w = true := by
    rw [← Key.isWrite_iff, Key.isWrite_mkKey]
  simp only [causeOf, mkKey_toNat_size, mkKey_toNat_off, direction]
  rw [if_neg (by decide), if_neg (not_not.2 h)]
  exact if_congr (by omega) rfl (if_congr (and_congr_right fun _ => by omega) rfl rfl)

/-- The two framebuffer windows, `OFF[13:12]` 0 and 3, are legal in both directions. -/
theorem causeOf_mkKey_windowOffset {window : BitVec 2} (h : window.toNat = 0 ∨ window.toNat = 3) (idx : BitVec 10) :
    causeOf (mkKey 0b10#2 w (windowOffset window idx)) = none := by
  have offset := windowOffset_toNat window idx
  have := idx.isLt
  rw [causeOf_mkKey_of_aligned _ _ (by omega), if_neg (by omega), if_neg (by omega)]

/-- The gamma table may only be read. -/
theorem causeOf_mkKey_lutOffset (idx : BitVec 8) :
    causeOf (mkKey 0b10#2 w (lutOffset idx)) = if w = true then some 4#3 else none := by
  have offset := lutOffset_toNat idx
  have := idx.isLt
  rw [causeOf_mkKey_of_aligned _ _ (by omega), if_neg (by omega)]
  exact if_congr (and_iff_left (by omega)) rfl rfl

end

/-- The priority of R292 gives a transaction's key the cause of the row it belongs to. -/
theorem causeOf_encodeKey {i : Instr} (he : i.isEvent = false) (hwf : i.wellFormed = true) :
    causeOf (encodeKey i) = busErrorCause i := by
  cases i <;> simp only [Instr.isEvent, Bool.true_eq_false] at he
  case busErrSizeNarrow half off acc =>
    exact causeOf_mkKey_of_size _ _ _ (by have := half.toNat_lt; rw [narrowSize_toNat]; omega)
  case busErrSizeReserved off acc => exact causeOf_mkKey_of_size _ _ _ (by decide)
  case busErrAlignOdd off acc =>
    have odd := (getLsbD_eq_true_iff off 0).1 hwf
    exact causeOf_mkKey_of_unaligned _ _ (by omega)
  case busErrAlignEven off acc =>
    have unaligned := (getLsbD_eq_true_iff off 1).1 (Bool.and_eq_true_iff.1 hwf).1
    exact causeOf_mkKey_of_unaligned _ _ (by omega)
  case busErrUnmapped off acc =>
    obtain ⟨aligned, unmapped⟩ := Bool.and_eq_true_iff.1 hwf
    exact (causeOf_mkKey_of_aligned _ _ ((Offset.aligned_iff off).1 aligned)).trans
      (if_pos ((Offset.unmapped_iff off).1 unmapped))
  case fbRd | fbWr => exact causeOf_mkKey_windowOffset _ (.inl rfl) _
  case fbgRd | fbgWr => exact causeOf_mkKey_windowOffset _ (.inr rfl) _
  case lutRd | busErrRoLut => exact causeOf_mkKey_lutOffset _ _
  -- What is left are the registers, each at one key.
  all_goals
    simp only [encodeKey, busErrorCause]
    decide

/-- The cause of a key is that of the instruction it decodes to. -/
theorem busErrorCause_decodeKey (key : Key) (wdata : Word) : busErrorCause (decodeKey key wdata) = causeOf key := by
  rw [← causeOf_encodeKey (decodeKey_isEvent key wdata) (decodeKey_wellFormed key wdata), encodeKey_decodeKey]

end Sys2Proof
end

section
/-!
PROOFS. Bus errors: a refused transaction takes its cause and does nothing else (R290, R291), and the fault record only
grows until a reset (R298).
-/
namespace Sys2Proof.Machine

open Sys2Proof.Claims

/-! ### What a refused transaction does (R291) -/

theorem errorResponse_eq_errorOf (acc : Access) : errorResponse acc = errorOf acc := by cases acc <;> rfl

/-- A transaction with a cause raises its bus error, in every state. -/
theorem exec_of_busErrorCause {i : Instr} {c : BitVec 3} (h : busErrorCause i = some c) (s : State) :
    exec i s = .next (refused s c (encodeKey i) i (errorOf (accessOf i))) := by
  rw [← errorResponse_eq_errorOf]
  cases i <;> simp only [busErrorCause, Option.some.injEq, reduceCtorEq] at h
  all_goals
    subst h
    rfl

/-- The same with the recorded key as arithmetic. -/
theorem exec_of_busErrorCause_keyOf {i : Instr} {c : BitVec 3} (h : busErrorCause i = some c) {size : BitVec 2}
    {w : Bool} {off : Offset} (hkey : encodeKey i = mkKey size w off) {m n : Nat} (hsize : size.toNat = m)
    (hoff : off.toNat = n) (s : State) : exec i s = .next (refused s c (keyOf m w n) i (errorOf (accessOf i))) := by
  rw [exec_of_busErrorCause h, hkey, mkKey_eq_keyOf, hsize, hoff]

/-- Settles O12, by the cause and the key of each refused transaction. -/
theorem refusedTransactionsTakeTheBusError : Obligations.RefusedTransactionsTakeTheBusError := by
  refine fun s => ⟨fun half off acc => ?narrow, ?_, ?_, ?_, ?_, fun idx w => ?lut, ?_, ?_, ?_, ?_, ?_⟩
  case narrow => exact exec_of_busErrorCause_keyOf rfl rfl (narrowSize_toNat half) rfl s
  case lut => exact exec_of_busErrorCause_keyOf rfl rfl (by rfl) ((lutOffset_toNat idx).trans (by omega)) s
  all_goals
    intros
    exact exec_of_busErrorCause_keyOf rfl rfl (by rfl) (by rfl) s

/-! ### What every key's transaction does (R290, R291) -/

/-- A decoded key's error response is that of its direction (R291). -/
theorem errorOf_decodeKey (key : Key) (wdata : Word) : errorOf (accessOf (decodeKey key wdata)) =
    if key.toNat / 2 ^ 14 % 2 = 1 then .writeError else .readError 0#32 := by
  obtain ⟨-, -, -, access⟩ := keyDecodeIsTotalAndLosesNothing key wdata
  rw [access]
  split_ifs <;> rfl

/-- The refused transactions are exactly those with a cause (R95, R290). -/
theorem busErrorCause_isSome (i : Instr) : (busErrorCause i).isSome = isBusError i := by cases i <;> rfl

/-- Only a refused transaction writes the error registers (R40). -/
theorem exec_keeps_errors {i : Instr} {s t : State} (h : busErrorCause i = none) (ht : exec i s = .next t) :
    t.errCause = s.errCause ∧ t.errKey = s.errKey := by
  obtain ⟨-, -, -, -, -, errors, -⟩ := registersHaveOnlyTheirWriters i s t ht
  have legal : ¬ isBusError i = true := by simp [← busErrorCause_isSome, h]
  exact (not_or.1 (mt errors legal)).imp not_not.1 not_not.1

/-- Settles O11: the decoded instruction has the cause of the key; without one it completes and writes no error register. -/
theorem busErrorCauseFollowsThePriority : Obligations.BusErrorCauseFollowsThePriority := by
  intro key wdata s
  have cause := busErrorCause_decodeKey key wdata
  cases hc : causeOf key with
  | some code =>
    show exec (decodeKey key wdata) s = _
    rw [exec_of_busErrorCause (cause.trans hc), encodeKey_decodeKey, errorOf_decodeKey]
  | none =>
    obtain ⟨t, ht⟩ := exec_host_completes (decodeKey_isEvent key wdata) s
    exact ⟨t, ht, exec_keeps_errors (cause.trans hc) ht⟩

/-! ### The fault record (R298) -/

/-- An event keeps the record; a `COL` step that reads an unwritten word adds to it (R297). -/
theorem exec_event_record_prefix {i : Instr} {s t : State} (he : i.isEvent = true) (h : exec i s = .next t) :
    s.record <+: t.record := by
  rcases exec_event_cases he h with ⟨-, -, rfl⟩ | ⟨-, -, rfl⟩ | ⟨-, -, rfl⟩ | ⟨-, -, rfl⟩ | ⟨-, -, rfl⟩ |
    ⟨-, -, rfl⟩ | ⟨-, -, rfl⟩ | ⟨-, -, rfl⟩ | ⟨-, -, rfl⟩
  · exact List.prefix_rfl
  · exact List.prefix_rfl
  · rw [State.colStep_eq]
    dsimp only
    split_ifs
    · exact List.prefix_rfl
    · exact List.prefix_append _ _
  · rw [State.clkStep_eq]
  · exact List.prefix_rfl
  · exact List.prefix_rfl
  · rw [State.holdStep_eq]
  · rw [State.enoffStep_eq]
  · exact List.prefix_rfl

/-- A host transaction keeps the record; reads of unwritten words, settings of `SCAN_WR` and `GO_IGN` and bus errors add
to it (R291, R297, R298). -/
theorem exec_host_record_prefix {i : Instr} {s t : State} (he : i.isEvent = false) (h : exec i s = .next t) :
    s.record <+: t.record := by
  rcases exec_host_cases he h with ⟨idx, -, rfl⟩ | ⟨idx, w, v, -, rfl⟩ | ⟨-, -, r, rfl⟩ | ⟨c, -, rfl⟩ |
    ⟨w, -, rfl⟩ | ⟨w, -, rfl⟩ | ⟨w, -, hw⟩
  · cases hfb : s.fb idx with
    | some w => rw [readPixel_written _ _ _ _ hfb, State.respond_record]
    | none => rw [readPixel_unwritten _ _ _ hfb]; exact List.prefix_append _ _
  · rw [writePixel_eq]
    dsimp only
    split_ifs
    · exact List.prefix_append _ _
    · exact List.prefix_rfl
  · exact List.prefix_rfl
  · exact List.prefix_append _ _
  · exact List.prefix_rfl
  · exact List.prefix_rfl
  · rw [execCtrlWr_eq] at hw
    injection hw with hw
    subst hw
    split_ifs
    · exact List.prefix_rfl
    · exact List.prefix_append _ _
    · exact List.prefix_rfl

/-- Running an instruction never takes an entry out of the record (R298). -/
theorem exec_record_prefix {i : Instr} {s t : State} (h : exec i s = .next t) : s.record <+: t.record := by
  cases he : i.isEvent with
  | true => exact exec_event_record_prefix he h
  | false => exact exec_host_record_prefix he h

/-- The fetch finds a reset only in a reset turn (R340). -/
theorem head_of_fetch_reset {s s' : State} (h : s.fetch = .reset s') : s.agenda.head? = some .reset := by
  have engine (st : State) : st.fetchEngine ≠ .reset s' := by
    unfold State.fetchEngine
    split <;> simp
  cases ha : s.agenda with
  | nil => exact absurd ((State.fetch_of_empty ha).symm.trans h) (engine s)
  | cons turn rest =>
    cases turn with
    | host key wdata => simp [State.fetch, ha] at h
    | event word => cases hd : decodeEvent word <;> simp [State.fetch, ha, hd] at h
    | engine => exact absurd ((State.fetch_of_engine ha).symm.trans h) (engine _)
    | reset => rfl

/-- Settles O51: what the fetch finds runs, or changes nothing but the agenda. -/
theorem faultRecordOnlyGrows : Obligations.FaultRecordOnlyGrows := by
  intro s t hstep noReset
  suffices grows : s.record <+: t.record from grows.imp fun _ h => h.symm
  rcases fetch_cases s with ⟨i, a, hf⟩ | ⟨a, hf⟩ | ⟨a, hf, -⟩ | ⟨w, hf⟩
  · exact exec_record_prefix (s := { s with agenda := a }) ((step_of_fetch_run hf).symm.trans hstep)
  · exact absurd (head_of_fetch_reset hf) noReset
  · rw [step_of_fetch_quiet hf] at hstep
    cases hstep
    exact List.prefix_rfl
  · simp [step, hf] at hstep

end Sys2Proof.Machine
end

section
/-!
PROOFS. The reset turn performs the reset action (R340), whose values are those that R45 lists.
-/
namespace Sys2Proof.Machine

open Sys2Proof.Claims

/-- Settles O2: the step is the reset action, which takes R45's values (O1) and keeps the trace (log entry 8). -/
theorem resetTurnPerformsTheResetAction : Obligations.ResetTurnPerformsTheResetAction := by
  intro s rest h
  obtain ⟨state, row, plane, column, baseAct, fb, ctrl, -, status, -, base, frames, -, -, lines, errCause, errKey, -,
    time, on, -⟩ := resetLeavesTheListedValues
  have trace : (State.resetAction { s with agenda := rest }).trace = s.trace := State.resetAction_trace _
  exact ⟨_, step_of_reset h, state, row, plane, column, baseAct, fb, ctrl, status, base, frames, errCause, errKey,
    lines, time, on, rfl, trace, lutValid_all _⟩

end Sys2Proof.Machine
end
